-- ==== Sys2Proof/Word.lean ====
section
/-! DEFINITION. The word types of the FV96 model and the sparse map in which every
array of like units (registers, tillers, channels, memory cells) is held. -/

namespace Sys2Proof

/-- A byte. -/
abbrev W8 := BitVec 8
/-- A 16-bit word. -/
abbrev W16 := BitVec 16
/-- A 32-bit word: a `g`, `f` or `s` register of a tiller thread. -/
abbrev W32 := BitVec 32
/-- A 64-bit word: a device register. -/
abbrev W64 := BitVec 64

/-- A map from unit numbers to values, held as a list of pairs whose keys rise strictly.
A key that is not listed stands for the default value the reader names. -/
abbrev SMap (α : Type) := List (Nat × α)

namespace SMap

/-- The value at `k`; the default `z` where `k` is not listed. -/
def get {α : Type} (z : α) : SMap α → Nat → α
  | [], _ => z
  | (j, v) :: m, k => if k = j then v else if k < j then z else get z m k

/-- Writes `v` at `k`, keeping the keys in rising order. -/
def put {α : Type} : SMap α → Nat → α → SMap α
  | [], k, v => [(k, v)]
  | (j, w) :: m, k, v =>
    if k = j then (k, v) :: m
    else if k < j then (k, v) :: (j, w) :: m
    else (j, w) :: put m k v

/-- Removes the entry at `k`. -/
def del {α : Type} (m : SMap α) (k : Nat) : SMap α := m.filter (fun p => p.1 != k)

/-- The entry at `k`, if one is listed. -/
def find {α : Type} (m : SMap α) (k : Nat) : Option α :=
  (m.find? (fun p => p.1 == k)).map Prod.snd

/-- Writes `v` at `k`, listing no entry equal to the default `z`. -/
def set {α : Type} [DecidableEq α] (z : α) (m : SMap α) (k : Nat) (v : α) : SMap α :=
  if v = z then m.del k else m.put k v

end SMap
end Sys2Proof
end

