-- ==== Sys2Proof/Syntax.lean ====
section
/-! DEFINITION. The commands of the FV96, one constructor for each row of the table of operations, with
their operands. A thread is named by its tiller `t` and its number `k`. A command that is a write of a
dictionary object names the session it comes in (0 the PCIe mailbox, 1 + s key slot s, 5 plain Mbaros)
and its sequence number. A command that is an access of a register names the agent that makes it. -/

namespace Sys2Proof

/-- Who makes an access of a device register: a thread by LDX or STX, the host through BAR2, or the debug
path through DBG_ACC. Accesses by the Headland bridge and by Drills are commands of their own. -/
inductive Agent where
  | thread (t : Fin 96) (k : Fin 4)
  | host
  | debug
  deriving DecidableEq, Repr

/-- The SecTAG of a received frame (R380): SCI, AN and PN. DESIGN CHOICE, log entry 178. -/
structure SecTag where
  sci : List W8
  an  : Nat
  pn  : Nat
  deriving DecidableEq, Repr

/-- Source and destination address of an Ethernet frame (R374). -/
structure Stations where
  src : BitVec 48
  dst : BitVec 48
  deriving DecidableEq, Repr

/-- The peer that a TRAIN unit names: its bond number and its serial number (R394). -/
structure TrainId where
  num    : Fin 16
  serial : BitVec 64
  deriving DecidableEq, Repr

/-- The control fields that every Hedgerow unit carries (R390, R392). -/
structure Ctl where
  ack : Nat
  crq : Nat
  crs : Nat
  deriving DecidableEq, Repr

/-- A write of a slot's key, or of its role (R479). -/
inductive KeyOrRole where
  | key (bytes : List W8)
  | role (v : W8)
  deriving DecidableEq, Repr

/-- A resource of the claim table (R504). -/
inductive Resource where
  | ball (b : Fin 32)
  | unit (u : Fin 8)
  | cvu (u : Fin 32)
  | chan (n : Fin 8) (c : Fin 32)
  deriving DecidableEq, Repr

/-- The register that REGISTER_WRITE writes: one of the device region at an offset, written by an agent, or
a field of PCIe configuration space, written by the host. -/
inductive RegTarget where
  | device (w : Agent) (offset : BitVec 26) (wide : Bool)
  | pcieBusMaster
  | pcieMsixEnable
  | pcieFunctionMask
  | pcieD3hot
  | pcieCompletionTimeout
  deriving DecidableEq, Repr

/-- How a completion from the host stands (R405, R408): data, UR or CA status, or a poisoned TLP. -/
inductive CplStatus where
  | success | unsupported | abort | poisoned
  deriving DecidableEq, Repr

/-- What the link reports of an inbound write (R408): nothing, a correctable error, or a poisoned TLP. -/
inductive TlpErr where
  | none | correctable | poisoned
  deriving DecidableEq, Repr

/-- The payload of an inbound write, and how it arrived. -/
structure InTlp where
  bytes : List W8
  err   : TlpErr
  deriving DecidableEq, Repr

/-- A command (the table of operations), in the table's order; the commands without operands come last. -/

inductive Instr where
  /-- MOV (R182). -/
  | mov (t : Fin 96) (k : Fin 4) (a b : BitVec 5)
  /-- ADD (R182). -/
  | add (t : Fin 96) (k : Fin 4) (a b : BitVec 5)
  /-- SUB (R182). -/
  | sub (t : Fin 96) (k : Fin 4) (a b : BitVec 5)
  /-- CMP (R182). -/
  | cmp (t : Fin 96) (k : Fin 4) (a b : BitVec 5)
  /-- ADDI (R182). -/
  | addi (t : Fin 96) (k : Fin 4) (a imm : BitVec 5)
  /-- MOVI (R182). -/
  | movi (t : Fin 96) (k : Fin 4) (a imm : BitVec 5)
  /-- AND (R182). -/
  | and (t : Fin 96) (k : Fin 4) (a : BitVec 4) (b : BitVec 3)
  /-- OR (R182). -/
  | or (t : Fin 96) (k : Fin 4) (a : BitVec 4) (b : BitVec 3)
  /-- XOR (R182). -/
  | xor (t : Fin 96) (k : Fin 4) (a : BitVec 4) (b : BitVec 3)
  /-- ANDN (R182). -/
  | andn (t : Fin 96) (k : Fin 4) (a : BitVec 4) (b : BitVec 3)
  /-- ADC (R182). -/
  | adc (t : Fin 96) (k : Fin 4) (a : BitVec 4) (b : BitVec 3)
  /-- SBC (R182). -/
  | sbc (t : Fin 96) (k : Fin 4) (a : BitVec 4) (b : BitVec 3)
  /-- MULW (R184). -/
  | mulw (t : Fin 96) (k : Fin 4) (a : BitVec 4) (b : BitVec 3)
  /-- MULWU (R184). -/
  | mulwu (t : Fin 96) (k : Fin 4) (a : BitVec 4) (b : BitVec 3)
  /-- SHL (R183). -/
  | shl (t : Fin 96) (k : Fin 4) (a : BitVec 4) (b : BitVec 3)
  /-- SHR (R183). -/
  | shr (t : Fin 96) (k : Fin 4) (a : BitVec 4) (b : BitVec 3)
  /-- SAR (R183). -/
  | sar (t : Fin 96) (k : Fin 4) (a : BitVec 4) (b : BitVec 3)
  /-- ROL (R183). -/
  | rol (t : Fin 96) (k : Fin 4) (a : BitVec 4) (b : BitVec 3)
  /-- DIV (R185). -/
  | div (t : Fin 96) (k : Fin 4) (a : BitVec 4) (b : BitVec 3)
  /-- DIVU (R185). -/
  | divu (t : Fin 96) (k : Fin 4) (a : BitVec 4) (b : BitVec 3)
  /-- NOT (R182). -/
  | not (t : Fin 96) (k : Fin 4) (a : BitVec 5)
  /-- NEG (R182). -/
  | neg (t : Fin 96) (k : Fin 4) (a : BitVec 5)
  /-- PAR (R182). -/
  | par (t : Fin 96) (k : Fin 4) (a : BitVec 5)
  /-- BREV (R182). -/
  | brev (t : Fin 96) (k : Fin 4) (a : BitVec 5)
  /-- SEXT8 (R182). -/
  | sext8 (t : Fin 96) (k : Fin 4) (a : BitVec 5)
  /-- SEXT16 (R182). -/
  | sext16 (t : Fin 96) (k : Fin 4) (a : BitVec 5)
  /-- ZEXT8 (R182). -/
  | zext8 (t : Fin 96) (k : Fin 4) (a : BitVec 5)
  /-- ZEXT16 (R182). -/
  | zext16 (t : Fin 96) (k : Fin 4) (a : BitVec 5)
  /-- EXT (R177). -/
  | ext (t : Fin 96) (k : Fin 4) (imm : BitVec 10)
  /-- LD (R149). -/
  | ld (t : Fin 96) (k : Fin 4) (size : BitVec 2) (a : BitVec 4) (b : BitVec 3)
  /-- ST (R149). -/
  | st (t : Fin 96) (k : Fin 4) (size : BitVec 2) (a : BitVec 4) (b : BitVec 3)
  /-- LDX (R153). -/
  | ldx (t : Fin 96) (k : Fin 4) (size : BitVec 2) (a : BitVec 4) (b : BitVec 3)
  /-- STX (R154). -/
  | stx (t : Fin 96) (k : Fin 4) (size : BitVec 2) (a : BitVec 4) (b : BitVec 3)
  /-- LDH (R189). -/
  | ldh (t : Fin 96) (k : Fin 4) (a : BitVec 4) (b : BitVec 3)
  /-- STH (R189). -/
  | sth (t : Fin 96) (k : Fin 4) (a : BitVec 4) (b : BitVec 3)
  /-- LDHW (R189). -/
  | ldhw (t : Fin 96) (k : Fin 4) (a : BitVec 4) (b : BitVec 3)
  /-- STHW (R189). -/
  | sthw (t : Fin 96) (k : Fin 4) (a : BitVec 4) (b : BitVec 3)
  /-- PMW (R189). -/
  | pmw (t : Fin 96) (k : Fin 4) (a : BitVec 4) (b : BitVec 3)
  /-- SOW (R66). -/
  | sow (t : Fin 96) (k : Fin 4) (a : BitVec 4) (b : BitVec 3)
  /-- TOW (R78). -/
  | tow (t : Fin 96) (k : Fin 4) (a : BitVec 4) (b : BitVec 3)
  /-- WAIT (R140). -/
  | wait (t : Fin 96) (k : Fin 4) (a : BitVec 5)
  /-- CRC8 (R192). -/
  | crc8 (t : Fin 96) (k : Fin 4) (a : BitVec 5)
  /-- CRCW (R192). -/
  | crcw (t : Fin 96) (k : Fin 4) (a : BitVec 5)
  /-- CRCB (R193). -/
  | crcb (t : Fin 96) (k : Fin 4) (a : BitVec 5) (cut : Option Nat)
  /-- BCC (R195). -/
  | bcc (t : Fin 96) (k : Fin 4) (cond : BitVec 4) (off : BitVec 5)
  /-- DBNZ (R195). -/
  | dbnz (t : Fin 96) (k : Fin 4) (a : BitVec 4) (off : BitVec 5)
  /-- JMP (R195). -/
  | jmp (t : Fin 96) (k : Fin 4) (off : BitVec 9)
  /-- CALL (R195). -/
  | call (t : Fin 96) (k : Fin 4) (off : BitVec 9)
  /-- JR (R195). -/
  | jr (t : Fin 96) (k : Fin 4) (a : BitVec 5)
  /-- CALLR (R195). -/
  | callr (t : Fin 96) (k : Fin 4) (a : BitVec 5)
  /-- SVC (R196). -/
  | svc (t : Fin 96) (k : Fin 4) (a : BitVec 5)
  /-- RTE (R352). -/
  | rte (t : Fin 96) (k : Fin 4) (a : BitVec 5)
  /-- PSYNC (R196). -/
  | psync (t : Fin 96) (k : Fin 4) (a : BitVec 5)
  /-- FENCE (R293). -/
  | fence (t : Fin 96) (k : Fin 4) (a : BitVec 5)
  /-- CLAIM (R366). -/
  | claim (t : Fin 96) (k : Fin 4) (a : BitVec 5)
  /-- MFS (R199). -/
  | mfs (t : Fin 96) (k : Fin 4) (a : BitVec 4) (sr : BitVec 5)
  /-- MTS (R199). -/
  | mts (t : Fin 96) (k : Fin 4) (a : BitVec 4) (sr : BitVec 5)
  /-- SEED_PAUSE (R88). -/
  | seedPause (t : Fin 96)
  /-- SEED_CANCEL (R88). -/
  | seedCancel (t : Fin 96)
  /-- SEEDCTL_COMMAND_DONE (R203). -/
  | seedctlCommandDone (t : Fin 96)
  /-- STX_ENTRY_SEND (R154). -/
  | stxEntrySend (t : Fin 96) (k : Fin 4)
  /-- STX_ACK (R154). -/
  | stxAck (t : Fin 96) (k : Fin 4) (i : Fin 16)
  /-- LDX_DATA_RETURN (R153). -/
  | ldxDataReturn (t : Fin 96) (k : Fin 4)
  /-- SOW_DESCRIPTOR_RETURN (R66). -/
  | sowDescriptorReturn (t : Fin 96) (k : Fin 4)
  /-- CHAIN_BREAK_TIMEOUT (R81). -/
  | chainBreakTimeout (t : Fin 96) (k : Fin 4)
  /-- STRIP_START (R159). -/
  | stripStart (t : Fin 96)
  /-- STRIP_END (R221). -/
  | stripEnd (t : Fin 96) (k : Fin 4) (slot : Fin 8) (strip : Nat) (pass2 : Bool)
  /-- STRIP_FAULT_REPORT (R226). -/
  | stripFaultReport (t : Fin 96) (k : Fin 4) (slot : Fin 8) (strip : Nat) (pass2 : Bool)
  /-- STRIP_PARTIAL_ARRIVE (R223). -/
  | stripPartialArrive (t : Fin 96) (k : Fin 4) (slot : Fin 8) (strip : Nat)
  /-- COMBINE_OP_DONE (R223). -/
  | combineOpDone (t : Fin 96) (k : Fin 4) (slot : Fin 8)
  /-- SEED_END (R83). -/
  | seedEnd (t : Fin 96) (k : Fin 4) (slot : Fin 8)
  /-- SEED_WRITEBACK_ACK (R83). -/
  | seedWritebackAck (t : Fin 96) (k : Fin 4) (slot : Fin 8)
  /-- GLEAN_REQUEST (R213). -/
  | gleanRequest (t : Fin 96)
  /-- GLEAN_GRANT (R214). -/
  | gleanGrant (q : Fin 4)
  /-- TC_START (R168). -/
  | tcStart (w : Agent) (t : Fin 96) (k : Fin 4)
  /-- TC_STOP (R169). -/
  | tcStop (w : Agent) (t : Fin 96) (k : Fin 4)
  /-- FAST_EVENT (R349). -/
  | fastEvent (t : Fin 96) (k : Fin 4)
  /-- NORMAL_EVENT (R346). -/
  | normalEvent (t : Fin 96) (k : Fin 4)
  /-- SEED_DONE (R355). -/
  | seedDone (t : Fin 96) (k : Fin 4)
  /-- SEED_FAULT (R355). -/
  | seedFault (t : Fin 96) (k : Fin 4)
  /-- ASYNC_STORE (R357). -/
  | asyncStore (t : Fin 96) (k : Fin 4)
  /-- AS_POP (R357). -/
  | asPop (w : Agent) (t : Fin 96) (k : Fin 4)
  /-- EV_TRIG (R363). -/
  | evTrig (w : Agent) (n : BitVec 11)
  /-- DELIVERY_COMMIT (R363). -/
  | deliveryCommit (n : BitVec 11)
  /-- MODERATION_TIMEOUT (R363). -/
  | moderationTimeout (n : BitVec 11)
  /-- IDLE_STATE_UPDATE (R363). -/
  | idleStateUpdate (t : Fin 96)
  /-- DELIVERY_PRESENT (R364). -/
  | deliveryPresent (n : BitVec 11)
  /-- DELIVERY_WITHDRAW (R364). -/
  | deliveryWithdraw (n : BitVec 11)
  /-- MASK_WITHDRAW (R368). -/
  | maskWithdraw (n : BitVec 11)
  /-- CLAIM_DECIDE (R366). -/
  | claimDecide (t : Fin 96) (k : Fin 4)
  /-- ATOM_EXEC (R285). -/
  | atomExec (t : Fin 96) (k : Fin 4)
  /-- WALK_COMPLETE (R324). -/
  | walkComplete (t : Fin 96) (k : Fin 4)
  /-- XI_VA (R327). -/
  | xiVa (w : Agent) (q : Fin 4) (part : BitVec 4) (asid : BitVec 12) (vpn : BitVec 36)
  /-- XI_VA_ANY_ASID (R327). -/
  | xiVaAnyAsid (w : Agent) (q : Fin 4) (part : BitVec 4) (vpn : BitVec 36)
  /-- XI_ASID (R327). -/
  | xiAsid (w : Agent) (q : Fin 4) (part : BitVec 4) (asid : BitVec 12)
  /-- XI_PARTITION (R327). -/
  | xiPartition (w : Agent) (q : Fin 4) (part : BitVec 4)
  /-- XI_ALL (R327). -/
  | xiAll (w : Agent) (q : Fin 4)
  /-- XI_REQ_LOW_HALF (R595). -/
  | xiReqLowHalf (w : Agent) (q : Fin 4) (v : BitVec 32)
  /-- XI_SYNC (R329). -/
  | xiSync (w : Agent) (q : Fin 4)
  /-- PATROL_SCRUB_READ (R300). -/
  | patrolScrubRead (unit : Fin 12)
  /-- PISTE_ADMIT (R249). -/
  | pisteAdmit (ses : Fin 6) (seq : BitVec 32) (e : Fin 4) (slot : Fin 16) (f : BitVec 12)
  /-- PISTE_WITHDRAW (R252). -/
  | pisteWithdraw (ses : Fin 6) (seq : BitVec 32) (e : Fin 4) (slot : Fin 16)
  /-- PISTE_WITHDRAW_COMPLETE (R252). -/
  | pisteWithdrawComplete (e : Fin 4) (slot : Fin 16)
  /-- PISTE_WINDOW_QUEUE (R254). -/
  | pisteWindowQueue (f : Fin 4096)
  /-- PISTE_DISPATCH (R246). -/
  | pisteDispatch (e : Fin 4)
  /-- PISTE_COMMIT (R246). -/
  | pisteCommit (e : Fin 4)
  /-- PISTE_RESULT_FETCH (R256). -/
  | pisteResultFetch (e : Fin 4)
  /-- EXPRESS_FRAME_SEND (R257). -/
  | expressFrameSend (p : Fin 16)
  /-- DEADLINE_MISS (R265). -/
  | deadlineMiss (e : Fin 4)
  /-- PISTE_DEADLINE_UNIT_CLAIM (R264). -/
  | pisteDeadlineUnitClaim (ses : Fin 6) (seq : BitVec 32) (e : Fin 4) (u : Fin 8)
  /-- PISTE_DEADLINE_UNIT_RELEASE (R264). -/
  | pisteDeadlineUnitRelease (ses : Fin 6) (seq : BitVec 32) (e : Fin 4)
  /-- FRAME_CLASSIFY (R415). -/
  | frameClassify (p : Fin 16) (bytes : List W8) (fcs : Bool) (tag : Option SecTag) (icv : Bool)
  /-- PFC_XOFF_REPEAT (R430). -/
  | pfcXoffRepeat (p : Fin 16)
  /-- WINDOW_COMPLETE (R417). -/
  | windowComplete (f : Fin 4096)
  /-- WINDOW_TIMEOUT (R420). -/
  | windowTimeout (f : Fin 4096)
  /-- FR_REL_WRITE (R419). -/
  | frRelWrite (w : Agent) (f : Fin 4096) (count : BitVec 32)
  /-- OUTPUT_POST (R425). -/
  | outputPost (w : Agent) (f : Fin 4096) (count : BitVec 32)
  /-- OUTPUT_SEND (R426). -/
  | outputSend (p : Fin 16)
  /-- FURROW_ENABLE (R434). -/
  | furrowEnable (ses : Fin 6) (seq : BitVec 32) (f : Fin 4096)
  /-- FURROW_DISABLE (R434). -/
  | furrowDisable (ses : Fin 6) (seq : BitVec 32) (f : Fin 4096)
  /-- FURROW_DISABLE_COMPLETE (R434). -/
  | furrowDisableComplete (f : Fin 4096)
  /-- FURROW_CLEAR (R434). -/
  | furrowClear (ses : Fin 6) (seq : BitVec 32) (f : Fin 4096)
  /-- FURROW_RESYNC (R434). -/
  | furrowResync (ses : Fin 6) (seq : BitVec 32) (f : Fin 4096)
  /-- FURROW_TIMEOUT_UNIT_CLAIM (R435). -/
  | furrowTimeoutUnitClaim (ses : Fin 6) (seq : BitVec 32) (g u : Fin 8)
  /-- FURROW_TIMEOUT_UNIT_RELEASE (R435). -/
  | furrowTimeoutUnitRelease (ses : Fin 6) (seq : BitVec 32) (g : Fin 8)
  /-- GREETING (R441). -/
  | greeting (p : Fin 16) (who : Stations) (key : Fin 4) (ctr : BitVec 64) (icv : Bool)
      (pid : BitVec 64) (attempt : BitVec 8) (period : BitVec 16)
  /-- TOKEN_REFILL (R440). -/
  | tokenRefill (p : Fin 16)
  /-- HEARTBEAT (R444). -/
  | heartbeat (p : Fin 16) (mac : BitVec 48) (key : Fin 4) (ctr : BitVec 64) (icv : Bool) (pid : BitVec 64)
  /-- PARTNER_ADMIT (R438). -/
  | partnerAdmit (ses : Fin 6) (seq : BitVec 32) (idx : BitVec 8) (mac : BitVec 48) (p : Fin 16) (period : BitVec 16) (pid : BitVec 64)
  /-- PARTNER_EVICT (R438). -/
  | partnerEvict (ses : Fin 6) (seq : BitVec 32) (idx : BitVec 8)
  /-- GREETING_QUEUE_POP (R441). -/
  | greetingQueuePop (ses : Fin 6) (seq : BitVec 32) (v : BitVec 8)
  /-- CH_START (R452). -/
  | chStart (w : Agent) (n : Fin 8) (c : Fin 32) (ctrl : BitVec 29)
  /-- CH_FETCH (R452). -/
  | chFetch (w : Agent) (n : Fin 8) (c : Fin 32) (ctrl : BitVec 29)
  /-- CH_ABORT (R463). -/
  | chAbort (w : Agent) (n : Fin 8) (c : Fin 32)
  /-- ABORT_COMPLETE (R463). -/
  | abortComplete (n : Fin 8)
  /-- CHANNEL_RUN (R453). -/
  | channelRun (n : Fin 8)
  /-- DESCRIPTOR_END (R456). -/
  | descriptorEnd (n : Fin 8)
  /-- DESCRIPTOR_LOAD (R458). -/
  | descriptorLoad (n : Fin 8)
  /-- TRANSFER_ERROR (R460). -/
  | transferError (n : Fin 8)
  /-- LATE_WRITE_FAILURE (R461). -/
  | lateWriteFailure (n : Fin 8)
  /-- CVU_ATTACH (R470). -/
  | cvuAttach (u : Fin 32)
  /-- CV_INIT (R468). -/
  | cvInit (w : Agent) (u : Fin 32)
  /-- CV_FEED8 (R468). -/
  | cvFeed8 (w : Agent) (u : Fin 32) (v : BitVec 8)
  /-- CV_FEED16 (R468). -/
  | cvFeed16 (w : Agent) (u : Fin 32) (v : BitVec 16)
  /-- CV_FEED32 (R468). -/
  | cvFeed32 (w : Agent) (u : Fin 32) (v : BitVec 32)
  /-- CV_PFX (R468). -/
  | cvPfx (w : Agent) (u : Fin 32) (v : BitVec 64)
  /-- PORT_ENABLE (R376). -/
  | portEnable (ses : Fin 6) (seq : BitVec 32) (p : Fin 16) (cfg : BitVec 31)
  /-- PORT_DISABLE (R376). -/
  | portDisable (ses : Fin 6) (seq : BitVec 32) (p : Fin 16) (cfg : BitVec 31)
  /-- PCS_LOCK (R376). -/
  | pcsLock (p : Fin 16)
  /-- HOLD_TIMEOUT (R376). -/
  | holdTimeout (p : Fin 16)
  /-- LINK_FAULT (R376). -/
  | linkFault (p : Fin 16) (loc rem : Bool)
  /-- PREEMPT_VERIFY (R378). -/
  | preemptVerify (p : Fin 16) (ok : Bool)
  /-- PAUSE_FRAME (R377). -/
  | pauseFrame (p : Fin 16) (quanta : BitVec 16)
  /-- PFC_FRAME (R377). -/
  | pfcFrame (p : Fin 16) (enable : BitVec 8) (quanta : List W16)
  /-- LLDP_RECEIVE (R381). -/
  | lldpReceive (p : Fin 16) (bytes : List W8)
  /-- LLDP_TTL_EXPIRE (R381). -/
  | lldpTtlExpire (p : Fin 16)
  /-- ALM_STEP (R385). -/
  | almStep (w : Agent) (ofs : BitVec 64)
  /-- ALM_SET (R385). -/
  | almSet (w : Agent) (sec : BitVec 48)
  /-- ALM_T0_READ (R385). -/
  | almT0Read (w : Agent)
  /-- CC_COMPARE (R386). -/
  | ccCompare (u : Fin 8)
  /-- CC_CAPTURE (R386). -/
  | ccCapture (u : Fin 8) (rising : Bool)
  /-- PTM_DIALOG (R388). -/
  | ptmDialog (master : BitVec 64)
  /-- BOND_ENABLE (R394). -/
  | bondEnable (ses : Fin 6) (seq : BitVec 32) (b : Fin 16) (cfg : BitVec 31)
  /-- BOND_UP (R394). -/
  | bondUp (b : Fin 16)
  /-- LANE_LOCK_TIMEOUT (R394). -/
  | laneLockTimeout (b : Fin 16) (locked : BitVec 8)
  /-- MISMATCH_RETRY (R394). -/
  | mismatchRetry (b : Fin 16)
  /-- HEDGEROW_READ (R397). -/
  | hedgerowRead (b : Fin 16) (pseq : BitVec 12) (tag : BitVec 16) (addr : BitVec 40) (len : BitVec 16) (ctl : Ctl)
  /-- HEDGEROW_WRITE (R397). -/
  | hedgerowWrite (b : Fin 16) (pseq : BitVec 12) (addr : BitVec 40) (bytes : List W8) (ctl : Ctl)
  /-- RDATA (R399). -/
  | rdata (b : Fin 16) (pseq : BitVec 12) (tag : BitVec 16) (status : BitVec 8) (bytes : List W8) (ctl : Ctl)
  /-- WERR (R400). -/
  | werr (b : Fin 16) (pseq : BitVec 12) (addr : BitVec 40) (ctl : Ctl)
  /-- NAK (R393). -/
  | nak (b : Fin 16) (ctl : Ctl)
  /-- IDLE (R392). -/
  | idle (b : Fin 16) (ctl : Ctl)
  /-- ALIGN (R389). -/
  | align (b : Fin 16)
  /-- TRAIN (R394). -/
  | train (b : Fin 16) (peer : TrainId) (lanes : Fin 9) (crq crs : BitVec 16)
  /-- IDLE_SEND (R393). -/
  | idleSend (b : Fin 16)
  /-- REPLAY_TIMEOUT (R393). -/
  | replayTimeout (b : Fin 16)
  /-- HEDGEROW_READ_TIMEOUT (R399). -/
  | hedgerowReadTimeout (b : Fin 16) (tag : BitVec 16)
  /-- BOND_DOWN (R401). -/
  | bondDown (b : Fin 16)
  /-- PCIE_INBOUND_WRITE (R295). -/
  | pcieInboundWrite (bar2 : Bool) (offset : BitVec 36) (tlp : InTlp)
  /-- PCIE_INBOUND_READ (R295). -/
  | pcieInboundRead (bar2 : Bool) (offset : BitVec 36) (len : BitVec 13)
  /-- PCIE_ATOMICOP (R288). -/
  | pcieAtomicop (op : Fin 3) (size : BitVec 5) (offset : BitVec 36) (x cmp : BitVec 64)
  /-- PCIE_COMPLETION (R405). -/
  | pcieCompletion (tag : Nat) (st : CplStatus) (bytes : List W8)
  /-- MSIX_UNMASK (R406). -/
  | msixUnmask (v : BitVec 11)
  /-- PELZ_FRAME (R488). -/
  | pelzFrame (port : Option (Fin 16)) (bytes : List W8) (fcs : Bool)
  /-- READ (R482). -/
  | read (ses : Fin 6) (seq : BitVec 32) (index : BitVec 16) (sub : BitVec 8) (len : BitVec 16) (off : BitVec 32)
  /-- WRITE (R482). -/
  | write (ses : Fin 6) (seq : BitVec 32) (index : BitVec 16) (sub : BitVec 8) (ifver : Option W16) (last : Bool) (off : BitVec 32) (val : List W8)
  /-- WRITEV (R484). -/
  | writev (ses : Fin 6) (seq : BitVec 32) (val : List W8)
  /-- OCLAIM (R499). -/
  | oclaim (ses : Fin 6) (seq : BitVec 32) (index : BitVec 16) (sub : BitVec 8) (ifver : Option W16) (lease : BitVec 16)
  /-- ORELEASE (R499). -/
  | orelease (ses : Fin 6) (seq : BitVec 32) (index : BitVec 16) (sub : BitVec 8) (ifver : Option W16)
  /-- MAIN_HOST_HEARTBEAT (R497). -/
  | mainHostHeartbeat (ses : Fin 6) (seq v : BitVec 32)
  /-- TAKEOVER (R498). -/
  | takeover (ses : Fin 6) (seq : BitVec 32)
  /-- HAND_BACK (R498). -/
  | handBack (ses : Fin 6) (seq : BitVec 32)
  /-- KEY_WRITE (R492). -/
  | keyWrite (ses : Fin 6) (seq : BitVec 32) (slot : Fin 4) (what : KeyOrRole)
  /-- SIDEBAND_EVENT_CLAIM (R501). -/
  | sidebandEventClaim (ses : Fin 6) (seq : BitVec 32)
  /-- MAIN_HOST_EVENT_CLAIM (R501). -/
  | mainHostEventClaim (ses : Fin 6) (seq : BitVec 32)
  /-- ACCESS_DATA_READ (R503). -/
  | accessDataRead (ses : Fin 6) (seq : BitVec 32)
  /-- ACCESS_DATA_WRITE (R503). -/
  | accessDataWrite (ses : Fin 6) (seq : BitVec 32) (v : BitVec 64)
  /-- ACCESS_BLOCK_READ (R503). -/
  | accessBlockRead (ses : Fin 6) (seq : BitVec 32) (len : BitVec 16) (off : BitVec 32)
  /-- ACCESS_BLOCK_WRITE (R503). -/
  | accessBlockWrite (ses : Fin 6) (seq : BitVec 32) (last : Bool) (off : BitVec 32) (val : List W8)
  /-- RESOURCE_CLAIM (R505). -/
  | resourceClaim (ses : Fin 6) (seq : BitVec 32) (r : Resource) (holder : BitVec 16)
  /-- RESOURCE_RELEASE (R505). -/
  | resourceRelease (ses : Fin 6) (seq : BitVec 32) (r : Resource)
  /-- DEVICE_REQUEST_FALLOW (R520). -/
  | deviceRequestFallow (ses : Fin 6) (seq : BitVec 32)
  /-- DEVICE_REQUEST_READY (R520). -/
  | deviceRequestReady (ses : Fin 6) (seq : BitVec 32)
  /-- DEVICE_REQUEST_RUN_ALL (R520). -/
  | deviceRequestRunAll (ses : Fin 6) (seq : BitVec 32)
  /-- DOMAIN_REQUEST_ON (R517). -/
  | domainRequestOn (ses : Fin 6) (seq : BitVec 32) (pd : Fin 76)
  /-- DOMAIN_REQUEST_OFF (R519). -/
  | domainRequestOff (ses : Fin 6) (seq : BitVec 32) (pd : Fin 76)
  /-- DOMAIN_REQUEST_RETENTION (R305). -/
  | domainRequestRetention (ses : Fin 6) (seq : BitVec 32) (stack : Fin 8)
  /-- PLL_LOCK (R518). -/
  | pllLock (pd : Fin 76)
  /-- PLL_LOCK_TIMEOUT (R512). -/
  | pllLockTimeout (pd : Fin 76)
  /-- PLL_LOCK_LOSS (R512). -/
  | pllLockLoss (pd : Fin 76)
  /-- DOMAIN_ON (R518). -/
  | domainOn (pd : Fin 76)
  /-- DOMAIN_OFF_COMPLETE (R519). -/
  | domainOffComplete (pd : Fin 76)
  /-- RETENTION_ENTRY_COMPLETE (R305). -/
  | retentionEntryComplete (stack : Fin 8)
  /-- RETENTION_EXIT_COMPLETE (R305). -/
  | retentionExitComplete (stack : Fin 8)
  /-- RAIL_DROOP (R523). -/
  | railDroop (pd : Fin 76)
  /-- RAIL_FLOOR (R523). -/
  | railFloor (pd : Fin 76)
  /-- DROOP_RIDE_THROUGH (R523). -/
  | droopRideThrough (pd : Fin 76)
  /-- THERMAL_SAMPLE (R525). -/
  | thermalSample (readings : List W16)
  /-- WATCHDOG_CONFIGURE (R528). -/
  | watchdogConfigure (ses : Fin 6) (seq v : BitVec 32)
  /-- WATCHDOG_KICK (R528). -/
  | watchdogKick (ses : Fin 6) (seq : BitVec 32)
  /-- RESET_REQUEST (R530). -/
  | resetRequest (ses : Fin 6) (seq : BitVec 32)
  /-- RESET_N_ASSERT (R532). -/
  | resetNAssert (ns : Nat)
  /-- STRAP_SAMPLE (R536). -/
  | strapSample (boot clksel : BitVec 2) (lbist dbgOff : Bool) (mbId : BitVec 5)
  /-- LOGIC_SELF_TEST_GROUP (R542). -/
  | logicSelfTestGroup (pass : Bool)
  /-- MEMORY_SELF_TEST (R543). -/
  | memorySelfTest (unit : BitVec 16) (spares : List (BitVec 8 × BitVec 8)) (ok : Bool)
  /-- LANE_LOOPBACK (R544). -/
  | laneLoopback (failed : BitVec 32)
  /-- GPIO_CONFIGURE (R575). -/
  | gpioConfigure (ses : Fin 6) (seq : BitVec 32) (ball : Fin 32) (v : BitVec 16)
  /-- TAP_IR_UPDATE (R548). -/
  | tapIrUpdate (ir : BitVec 8)
  /-- DBG_ACC_READ (R551). -/
  | dbgAccRead (space wide : Bool) (addr : BitVec 46)
  /-- DBG_ACC_WRITE (R551). -/
  | dbgAccWrite (space wide : Bool) (addr : BitVec 46) (v : BitVec 64)
  /-- TD_HALT (R555). -/
  | tdHalt (t : Fin 96) (k : Fin 4)
  /-- TD_RESUME (R560). -/
  | tdResume (t : Fin 96) (k : Fin 4)
  /-- TD_STEP (R557). -/
  | tdStep (t : Fin 96) (k : Fin 4)
  /-- BREAKPOINT_HIT (R555). -/
  | breakpointHit (t : Fin 96) (k : Fin 4)
  /-- TD_FEED (R559). -/
  | tdFeed (t : Fin 96) (k : Fin 4) (word : BitVec 14)
  /-- REGISTER_WINDOW_WRITE (R558). -/
  | registerWindowWrite (t : Fin 96) (k : Fin 4) (file : Fin 3) (r : Fin 32) (v : BitVec 32)
  /-- TD_PC_WRITE (R558). -/
  | tdPcWrite (t : Fin 96) (k : Fin 4) (v : BitVec 14)
  /-- TT_PTR_WRITE (R566). -/
  | ttPtrWrite (t : Fin 96) (v : BitVec 11)
  /-- DEBUG_LOCK (R552). -/
  | debugLock (ses : Fin 6) (seq : BitVec 32)
  /-- REGISTER_WRITE (R12). -/
  | registerWrite (target : RegTarget) (v : BitVec 64)
  /-- PAUSE_TIMER_EXPIRY (R377). -/
  | pauseTimerExpiry (p : Fin 16) (prio : Option (Fin 8))
  /-- FRAME_DELIVERY (R429). -/
  | frameDelivery (g : Fin 8)
  /-- DELIVERY_WRITE_ACK (R428). -/
  | deliveryWriteAck (g : Fin 8)
  /-- HEDGEROW_DAMAGED_PACKET (R393). -/
  | hedgerowDamagedPacket (b : Fin 16)
  /-- HOST_CLAIM (R366). -/
  | hostClaim
  /-- LOAM_REFRESH (R272). -/
  | loamRefresh
  /-- LOAM_WRITE_QUEUE_DRAIN (R273). -/
  | loamWriteQueueDrain
  /-- CORRECTED_WRITEBACK (R297). -/
  | correctedWriteback
  /-- HEARTBEAT_LOSS_CHECK (R444). -/
  | heartbeatLossCheck
  /-- PCIE_COMPLETION_TIMEOUT (R405). -/
  | pcieCompletionTimeout
  /-- PCIE_RESET (R407). -/
  | pcieReset
  /-- MB_GO (R486). -/
  | mbGo
  /-- MB_RST (R485). -/
  | mbRst
  /-- LEASE_EXPIRE (R499). -/
  | leaseExpire
  /-- HEARTBEAT_LAPSE (R497). -/
  | heartbeatLapse
  /-- FALLOW_DELAY_EXPIRY (R520). -/
  | fallowDelayExpiry
  /-- WAKE_TIMER_EXPIRY (R520). -/
  | wakeTimerExpiry
  /-- INRUSH_TURN (R518). -/
  | inrushTurn
  /-- VDD_CORE_COLLAPSE (R523). -/
  | vddCoreCollapse
  /-- VDD_HL_FAULT (R523). -/
  | vddHlFault
  /-- THROTTLE_STEP_UP (R526). -/
  | throttleStepUp
  /-- THROTTLE_STEP_DOWN (R526). -/
  | throttleStepDown
  /-- THERMAL_TRIP (R527). -/
  | thermalTrip
  /-- XIN32K_LOSS (R511). -/
  | xin32kLoss
  /-- XIN32K_RETURN (R511). -/
  | xin32kReturn
  /-- WATCHDOG_PRETIMEOUT (R529). -/
  | watchdogPretimeout
  /-- WATCHDOG_EXPIRY (R529). -/
  | watchdogExpiry
  /-- RST_REQ_PULSE_END (R530). -/
  | rstReqPulseEnd
  /-- RST_REQ_UNANSWERED (R530). -/
  | rstReqUnanswered
  /-- RESET_N_RELEASE (R531). -/
  | resetNRelease
  /-- POR_ASSERT (R534). -/
  | porAssert
  /-- POR_RELEASE (R581). -/
  | porRelease
  /-- STARTUP_RAIL_CHECK (R582). -/
  | startupRailCheck
  /-- STARTUP_TEMP_CHECK (R527). -/
  | startupTempCheck
  /-- STARTUP_END (R514). -/
  | startupEnd
  /-- TAP_RESET (R546). -/
  | tapReset
  /-- CROSS_TRIGGER (R565). -/
  | crossTrigger
  /-- PCIE_LINK_UP (R408). -/
  | pcieLinkUp
  /-- REFCLK_LOSS (R510). -/
  | refclkLoss
  /-- REFCLK_RETURN (R510). -/
  | refclkReturn
  /-- TAP_LEAVES_TEST_LOGIC_RESET (R564). -/
  | tapLeavesTestLogicReset
  deriving DecidableEq, Repr

end Sys2Proof
end

