-- ==== Sys2Proof/Decode.lean ====
section
/-! DEFINITION. The command that a word spells by the bits of the table of operations. -/

namespace Sys2Proof

/-- No row of the table has bits: no word spells a command. (The words of the sequencer threads are decoded
by `Machine.decodeSeq`.) -/
def decodeTableWord (_nbits _w : Nat) : Option Instr := none

end Sys2Proof
end

