-- ==== Sys2Proof/Config.lean ====
section
/-! DEFINITION. What a part of the FV96 fixes and the specification leaves to the part
(`opaque` constants, so that no proof can see a value), and the supply of free values. -/

namespace Sys2Proof.Config

/-- The supply of free values (log entry 3): the `n`-th value that the specification leaves
open. Nothing constrains it. The state's counter `freeCtr` says how many have been used. -/
opaque freeValue : Nat → BitVec 64

/-- Silicon stepping as 0x1000:03 shows it: 0x00 for A0, 0x01 for A1 (R3). Only bit 0 is used.
DESIGN CHOICE, log entry 10. -/
opaque stepping : BitVec 1

/-- True for the -15 speed grade, false for -12 (R1). DESIGN CHOICE, log entry 10. -/
opaque speed15 : Bool

/-- True for the industrial temperature grade, false for the commercial one (R1). DESIGN CHOICE, log entry 10. -/
opaque industrial : Bool

/-- The device's serial number, a factory fuse (R5). DESIGN CHOICE, log entry 10. -/
opaque serial : BitVec 64

/-- The 64-byte self-test signature and identity words that fuses hold, by index (R5, R302).
DESIGN CHOICE, log entry 10. -/
opaque fuse : Nat → BitVec 64

end Sys2Proof.Config
end

