-- ==== Sys2Proof/Machine/Bits.lean ====
section
/-! DEFINITION. Bit fields, sign extension and little-endian bytes (R10, R11). -/

namespace Sys2Proof.Machine

/-- Bits `[hi:lo]` of a number (R10). -/
def fld (x hi lo : Nat) : Nat := x / 2 ^ lo % 2 ^ (hi + 1 - lo)

/-- Bit `i` of a number. -/
def bitN (x i : Nat) : Bool := x / 2 ^ i % 2 == 1

/-- One as a number for true, zero for false. -/
def b2n (b : Bool) : Nat := if b then 1 else 0

/-- A number with bits `[hi:lo]` replaced by the low bits of `v`. -/
def putFld (x hi lo v : Nat) : Nat :=
  x - fld x hi lo * 2 ^ lo + v % 2 ^ (hi + 1 - lo) * 2 ^ lo

/-- A number read as a two's complement number of `w` bits. -/
def sx (w x : Nat) : Int :=
  let y := x % 2 ^ w
  if y < 2 ^ (w - 1) then (y : Int) else (y : Int) - 2 ^ w

/-- An integer wrapped to `w` bits. -/
def wrapI (w : Nat) (i : Int) : Nat := (i % (2 ^ w : Int)).toNat

/-- Number of ones among the low `w` bits. -/
def popcount (w x : Nat) : Nat := ((List.range w).filter (bitN x)).length

/-- The number of bits up to and including the highest one: `bitlen 0 = 0` (R185). -/
def bitlen (x : Nat) : Nat := if x = 0 then 0 else Nat.log2 x + 1

/-- A number's low `n` bytes, least significant first (R11). -/
def toLE : Nat → Nat → List W8
  | 0, _ => []
  | n + 1, x => BitVec.ofNat 8 x :: toLE n (x / 256)

/-- The number whose bytes are given least significant first (R11). -/
def ofLE : List W8 → Nat
  | [] => 0
  | b :: bs => b.toNat + 256 * ofLE bs

/-- A number's low `n` bytes in network order (R11). -/
def toBE (n x : Nat) : List W8 := (toLE n x).reverse

/-- The number whose bytes are given in network order (R11). -/
def ofBE (bs : List W8) : Nat := ofLE bs.reverse

/-- Bytes `[i, i+n)` of a list, short where the list ends. -/
def slice {α : Type} (bs : List α) (i n : Nat) : List α := (bs.drop i).take n

/-- Pads or cuts a byte list to `n` bytes with zeros. -/
def padTo (n : Nat) (bs : List W8) : List W8 := bs.take n ++ List.replicate (n - bs.length) 0

/-- Saturating sum: a counter that stops at `m`. -/
def satAdd (m x y : Nat) : Nat := min m (x + y)

/-- All ones of 64 bits, where the counters of the Pelz dictionary stop. -/
def max64 : Nat := 2 ^ 64 - 1

/-- The first element of a list that meets `p`. -/
def firstWith {α : Type} (p : α → Bool) (l : List α) : Option α := l.find? p

/-- Replaces element `i` of a list. -/
def setAt {α : Type} (l : List α) (i : Nat) (v : α) : List α := l.set i v

/-- Half-open ranges that share at least one number; an empty range shares none. -/
def overlaps (a n b m : Nat) : Bool := decide (0 < n) && decide (0 < m) && decide (a < b + m) && decide (b < a + n)

/-- Naturally aligned access sizes of R32 and R187. -/
def aligned (a n : Nat) : Bool := a % n == 0

end Sys2Proof.Machine
end

