-- ==== Sys2Proof/Machine/StTiller.lean ====
section
/-! DEFINITION. Plain data of the memories and of the 96 tillers: threads, special
registers, store buffers, hoppers, control blocks, event registers of a thread. -/

namespace Sys2Proof.Machine

/-- Every stored byte of the device, by canonical cell number (`Machine/Mem.lean` numbers the
cells so that the two Granary windows meet in one cell, R266-R270), and the syndrome of each
8-byte granule: the stored check byte XOR the recomputed one (R296), 0 where not listed.
Canonical form: cells rise strictly and none holds 0, the value an unlisted cell reads as.
DESIGN CHOICE, log entry 58. -/
structure Mem where
  cells : List Host.Cell := []
  synd  : SMap W8 := []
  /-- granules corrected by a read and not yet written back (R297) -/
  fixes : List Nat := []
  deriving DecidableEq, Repr

/-- The states of a thread (R139), in the order of their codes. -/
inductive TSt where
  | stopped | ready | parked | waiting | halted | stopping
  deriving DecidableEq, Repr

/-- What makes an access (R317, R336 KIND): a read, a write, a descriptor fetch, an ATOM operation. -/
inductive AccKind where
  | read | write | fetch | atom
  deriving DecidableEq, Repr

/-- A translation context (R307, R311): partition, stage-1 registers, privilege and SUA. -/
structure XCtx where
  part : Nat := 0
  x0   : W32 := 0
  x1   : W32 := 0
  priv : Bool := false
  sua  : Bool := false
  deriving DecidableEq, Repr

/-- The data of a parked LDX or STX (R153, R154): the register named, the size, the address. -/
structure MemOp where
  load : Bool
  reg  : Nat
  size : Nat
  va   : Nat
  pa   : Nat := 0
  data : Nat := 0
  /-- originators whose invalidations removed the entry it was translated through (R329) -/
  stale : List Nat := []
  deriving DecidableEq, Repr

/-- What a PARKED or WAITING thread waits for (R138, R350). -/
inductive Park where
  /-- not parked -/
  | none
  /-- LDX or STX whose translation misses both TLBs: a walk runs (R324) -/
  | walk (op : MemOp)
  /-- SOW or TOW (`towed`) whose descriptor's translation walks (R66 step 3) -/
  | sowWalk (towed : Bool) (reg : Nat) (va : Nat)
  /-- LDX: the read is or will be issued; the data has not returned (R153) -/
  | ldx (op : MemOp)
  /-- STX: no store buffer entry is free (R154) -/
  | stxFull (op : MemOp)
  /-- SOW or TOW at step 1 or 2 of R66 -/
  | sowDrain (towed : Bool) (reg : Nat) (va : Nat)
  /-- SOW or TOW from step 3: the descriptor is fetched (R66) -/
  | sowFetch (towed : Bool) (reg : Nat) (va : Nat) (pa : Nat) (stale : List Nat := [])
  /-- FENCE (R293) -/
  | fence
  /-- CLAIM: sent, not decided (R366) -/
  | claim (reg : Nat)
  /-- an access to hopper `h`, which a chain holds (R80, R138) -/
  | hopper (h : Nat)
  /-- MTS to SEEDCTL waiting for BUSY, with the value written (R203) -/
  | seedctl (v : W32)
  /-- WAIT with its operand (R140) -/
  | wait (op : Nat)
  deriving DecidableEq, Repr

/-- An entry of a thread's store buffer (R154). -/
structure SbEntry where
  pa   : Nat
  size : Nat
  data : Nat
  priv : Bool
  sent : Bool := false
  /-- as in `MemOp` -/
  stale : List Nat := []
  deriving DecidableEq, Repr

/-- A seed fault record of one slot (R356). -/
structure Sfr where
  id   : W64 := 0
  idx  : W64 := 0
  va   : W64 := 0
  orig : W64 := 0
  deriving DecidableEq, Repr

/-- An ASYNC_STORE record: AS_HEAD0 and AS_HEAD1 (R357). -/
structure AsRec where
  head0 : W64
  head1 : W64
  deriving DecidableEq, Repr

/-- The debug state of one thread (R554-R561). -/
structure ThreadDbg where
  /-- WHY of TD_STAT: 0 not halted, 1 request, 2 step, 3 breakpoint, 4 cross-trigger, 5 on start -/
  why     : BitVec 4 := 0
  /-- the WHY of a halt that has been caused and has not taken effect; 0: none (R555) -/
  haltReq : BitVec 4 := 0
  /-- a STOP arrived while the thread was halted (R169, R560) -/
  stopReq : Bool := false
  /-- the CAS break is armed (R561) -/
  brk     : Bool := false
  /-- the next instruction issues at TD_PC whatever breakpoint names it (R560) -/
  passBp  : Bool := false
  /-- TD_PC, as the last halt or a debug write left it (R555) -/
  tdPc    : BitVec 14 := 0
  /-- EXT immediates fed and not yet joined to a word (R559) -/
  fext    : List (BitVec 10) := []
  /-- a fed instruction has not ended: the thread counts as HALTED -/
  busy    : Bool := false
  /-- TD_PC, EXT immediates and instruction address to return to when a fed instruction ends -/
  keepPc  : BitVec 14 := 0
  exc     : Bool := false
  vector  : BitVec 6 := 0
  info    : W16 := 0
  deriving DecidableEq, Repr

/-- One sequencer thread (R134). `ipc` is the address of the instruction in progress (its first
EXT word, R179) and `pc` the address of the next word. -/
structure Thread where
  st      : TSt := .stopped
  park    : Park := .none
  pc      : BitVec 14 := 0
  ipc     : BitVec 14 := 0
  /-- immediates of the EXT words issued ahead of the next instruction, first word first (R177) -/
  ext     : List (BitVec 10) := []
  /-- prefetch buffer: address and 16-bit container of each fetched word (R147) -/
  pf      : List (BitVec 14 × W16) := []
  /-- bit j: level j + 1 of EPRIV is a handler taken for PM_PARITY that has not issued its first word (R148) -/
  pmFirst : W8 := 0
  g       : SMap W32 := []
  f       : SMap W32 := []
  -- STATUS (R201)
  towo    : Bool := false
  fb      : Bool := false
  priv    : Bool := false
  sua     : Bool := false
  ct      : Bool := false
  c       : Bool := false
  z       : Bool := false
  n       : Bool := false
  v       : Bool := false
  -- exception registers (R343, R344)
  epc     : W32 := 0
  estat   : W32 := 0
  ecause  : W32 := 0
  evaLo   : W32 := 0
  evaHi   : W32 := 0
  epriv   : W32 := 0
  fepc    : W32 := 0
  festat  : W32 := 0
  fecause : W32 := 0
  fepriv  : W32 := 0
  -- the other special registers (R199)
  htbase  : W32 := 0
  crcp    : W32 := 0
  crcv    : W32 := 0
  crccfg  : W32 := 0
  amode   : W32 := 0
  seedctl : W32 := 0
  seedfc  : W32 := 0
  stripdef : W32 := 0
  cycHi   : W32 := 0
  xctx0   : W32 := 0
  xctx1   : W32 := 0
  evcfg   : W32 := 0
  -- EVSTAT (R354): the fields that are not derived
  sdone   : W8 := 0
  sfault  : W8 := 0
  asp     : Bool := false
  sb      : List SbEntry := []
  sfr     : SMap Sfr := []
  asq     : List AsRec := []
  asOvf   : W32 := 0
  /-- next generation of each seed slot (R68) -/
  gens    : SMap (BitVec 4) := []
  -- control block registers of the thread (R167) and its stop reason (R361)
  entry   : W32 := 0
  arg     : W32 := 0
  tpc     : W32 := 0
  threrr  : BitVec 4 := 0
  dbg     : ThreadDbg := {}
  deriving DecidableEq, Repr

/-- A cached translation (R323). `size` is the page size in bytes. -/
structure TlbEntry where
  part : Nat
  asid : Nat
  glob : Bool
  va   : Nat
  size : Nat
  pa   : Nat
  uPage : Bool
  w1   : Bool
  x1   : Bool
  w2   : Bool
  x2   : Bool
  dirty : Bool
  /-- levels of the two leaves, which a fault found in the entry reports (R336) -/
  l1   : Nat
  l2   : Nat
  /-- intermediate address of the page, for the record of a stage-2 fault (R335) -/
  ipa  : Nat
  deriving DecidableEq, Repr

end Sys2Proof.Machine
end

