-- ==== Sys2Proof/Machine/Mem.lean ====
section
/-! DEFINITION. The physical map, the interleave of lines over banks and the cells of memory
with their check values (R25-R31, R266-R270, R296-R299). -/

namespace Sys2Proof.Machine

/-- A region of the physical map (R25). -/
inductive Region where
  | loam (o : Nat)
  | granGlobal (o : Nat)
  | granQuad (q o : Nat)
  | piste (e o : Nat)
  | device (o : Nat)
  | host (o : Nat)
  | peer (p o : Nat)
  | hole
  deriving DecidableEq, Repr

/-- Decodes a physical address (R25, R26). -/
def region (pa : Nat) : Region :=
  if pa < 0x0008_0000_0000 then .loam pa
  else if pa < 0x0008_0C00_0000 then .granGlobal (pa - 0x0008_0000_0000)
  else if 0x0009_0000_0000 ≤ pa ∧ pa < 0x0009_4000_0000 then
    let o := pa - 0x0009_0000_0000
    if o % 0x1000_0000 < 0x0300_0000 then .granQuad (o / 0x1000_0000) (o % 0x1000_0000) else .hole
  else if 0x000A_0000_0000 ≤ pa ∧ pa < 0x000A_0100_0000 then
    let o := pa - 0x000A_0000_0000
    .piste (o / 0x40_0000) (o % 0x40_0000)
  else if 0x000B_0000_0000 ≤ pa ∧ pa < 0x000B_0400_0000 then .device (pa - 0x000B_0000_0000)
  else if 0x1000_0000_0000 ≤ pa ∧ pa < 0x1800_0000_0000 then .host (pa - 0x1000_0000_0000)
  else if 0x2000_0000_0000 ≤ pa ∧ pa < 0x3000_0000_0000 then
    let o := pa - 0x2000_0000_0000
    .peer (o / 0x0100_0000_0000) (o % 0x0100_0000_0000)
  else .hole

/-- The window of R25 and R28 an address lies in, for comparisons within one window (R29, R72). -/
def window (pa : Nat) : Nat :=
  match region pa with
  | .loam _ => 1
  | .granGlobal _ => 2
  | .granQuad q _ => 3 + q
  | .piste e _ => 7 + e
  | .device _ => 11
  | .host _ => 12
  | .peer p _ => 13 + p
  | .hole => 0

/-- Coordinates of a Granary line (R266). -/
structure GCoord where
  slice : Nat
  bank  : Nat
  row   : Nat
  deriving DecidableEq, Repr

/-- R267. -/
def granaryGlobal (o : Nat) : GCoord :=
  let L := o / 64
  let r := L / 1536
  let p := L % 1536
  let a := p / 512
  let b := p % 512
  let f := Nat.xor (r % 512) (fld r 10 9)
  let q := 512 * ((a + r) % 3) + Nat.xor b f
  ⟨q % 96, q / 96, r⟩

/-- R268. -/
def granaryQuadrant (j o : Nat) : GCoord :=
  let L := o / 64
  let r := L / 384
  let p := L % 384
  let a := p / 128
  let b := p % 128
  let f := Nat.xor (r % 128) (fld r 10 7)
  let q := 128 * ((a + r) % 3) + Nat.xor b f
  ⟨24 * j + q % 24, q / 24, r⟩

/-- Coordinates of a Loam line (R266). -/
structure LCoord where
  stack   : Nat
  channel : Nat
  bank    : Nat
  row     : Nat
  deriving DecidableEq, Repr

/-- R269. -/
def loamCoord (o : Nat) : LCoord :=
  let L := o / 64
  let r := L / 2048
  let p := L % 2048
  let q := Nat.xor p (Nat.xor (r % 2048) (fld r 17 11))
  ⟨q % 8, fld q 6 3, fld q 10 7, r⟩

/-! Cell numbers. Each memory's cells form one block of numbers, a granule's eight cells being
consecutive: Granary by slice, bank, row; Loam by physical address; then Piste stores, tiller
local stores and program memories. -/

def loamBase : Nat := 0
def granBase : Nat := 0x10_0000_0000
def pisteBase : Nat := 0x20_0000_0000
def lsBase : Nat := 0x30_0000_0000
def pmBase : Nat := 0x40_0000_0000

/-- Cell of a byte of a Granary line. -/
def GCoord.cell (c : GCoord) (byte : Nat) : Nat :=
  granBase + ((c.slice * 16 + c.bank) * 2048 + c.row) * 64 + byte

/-- The cell of a byte of memory that a physical address names; `none` where the address is no
byte of Loam, Granary or a Piste store. Tiller memories are reached through `lsCell`, `pmCell`. -/
def cellOf (pa : Nat) : Option Nat :=
  match region pa with
  | .loam o => some (loamBase + o)
  | .granGlobal o => some ((granaryGlobal o).cell (o % 64))
  | .granQuad q o => some ((granaryQuadrant q o).cell (o % 64))
  | .piste e o => some (pisteBase + e * 0x40_0000 + o)
  | _ => none

/-- Byte `o` of tiller `n`'s local store (R149). -/
def lsCell (n o : Nat) : Nat := lsBase + n * 0x1_0000 + o % 0x1_0000

/-- Byte `o` of tiller `n`'s program memory containers (R31). -/
def pmCell (n o : Nat) : Nat := pmBase + n * 0x8000 + o % 0x8000

/-- The quadrant a Granary line hashes to, for an address in a Granary window. -/
def granQuadrant (pa : Nat) : Option Nat :=
  match region pa with
  | .granGlobal o => some ((granaryGlobal o).slice / 24)
  | .granQuad q _ => some q
  | _ => none

/-- The Loam stack of an address in the Loam window. -/
def loamStack (pa : Nat) : Option Nat :=
  match region pa with
  | .loam o => some (loamCoord o).stack
  | _ => none

/-! Check values (R296, R297). -/

/-- The 80 smallest 8-bit values with an odd number of ones, at least three (R296): the values
of data bits 0-63 and then of tag bits 0-15. -/
def hsiao : List Nat :=
  (List.range 256).filter (fun v => let p := popcount 8 v; p % 2 == 1 && decide (3 ≤ p)) |>.take 80

/-- The coordinate word K of the granule of a cell (R296); the tillers' own memories have none. -/
def coordWord (c : Nat) : Nat :=
  let g := c % 64 / 8
  if c < granBase then
    let x := loamCoord c
    x.stack * 2 ^ 29 + x.channel * 2 ^ 25 + x.bank * 2 ^ 21 + x.row * 2 ^ 3 + g
  else if c < pisteBase then
    let n := (c - granBase) / 64
    n / 2 ^ 15 * 2 ^ 18 + n / 2 ^ 11 % 16 * 2 ^ 14 + n % 2 ^ 11 * 2 ^ 3 + g
  else if c < lsBase then (c - pisteBase) % 0x40_0000 / 8
  else 0

/-- The tag of a granule: K[15:0] XOR K[31:16] (R296). -/
def coordTag (c : Nat) : Nat := Nat.xor (coordWord c % 2 ^ 16) (coordWord c / 2 ^ 16 % 2 ^ 16)

/-- The check byte of 64 data bits and a tag (R296): the values of the bits that are 1, under XOR. -/
def checkByte (data tag : Nat) : W8 :=
  BitVec.ofNat 8 ((hsiao.zipIdx).foldl (fun a p => if bitN (data + tag * 2 ^ 64) p.2 then Nat.xor a p.1 else a) 0)

/-- How a syndrome reads (R297). -/
inductive Synd where
  | clean
  | data (bit : Nat)
  | check
  | addr
  | multi
  deriving DecidableEq, Repr

def readSynd (s : Nat) : Synd :=
  if s = 0 then .clean
  else match hsiao.findIdx? (· == s) with
    | some i => if i < 64 then .data i else .addr
    | none => if popcount 8 s = 1 then .check else .multi

/-- Kind of an uncorrectable detection as 0x6004:03 codes it. -/
def Synd.kind : Synd → Nat
  | .addr => 2
  | _ => 1

namespace Mem

/-- What a cell that is not listed holds: every memory is cleared to zero before it can be read
(R170, R238, R303). DEDUCED, log entry 11. -/
def unlisted : W8 := 0

/-- The stored byte of a cell, uncorrected. -/
def raw (m : Mem) (c : Nat) : W8 := SMap.get unlisted m.cells c

/-- Stores a byte, keeping the canonical form: cells rise strictly and hold no zero. DEDUCED, log entry 11. -/
def poke (m : Mem) (c : Nat) (b : W8) : Mem :=
  if b = unlisted then { m with cells := SMap.del m.cells c }
  else { m with cells := SMap.put m.cells c b }

/-- Keys rise strictly. -/
def sorted {α : Type} : SMap α → Bool
  | [] => true
  | [_] => true
  | p :: q :: r => decide (p.1 < q.1) && sorted (q :: r)

/-- The canonical form of memory: cells strictly rising, none equal to what an unlisted cell reads as, and the
syndromes strictly rising by granule. -/
def wf (m : Mem) : Bool := sorted m.cells && m.cells.all (fun p => p.2 != unlisted) && sorted m.synd

/-- The check byte recomputed from the data and the coordinates of the granule of cell `c` (R296). -/
def freshCheck (m : Mem) (c : Nat) : W8 :=
  checkByte (ofLE ((List.range 8).map (fun i => m.raw (c / 8 * 8 + i)))) (coordTag c)

/-- The check byte stored with the granule of cell `c` (R296): the recomputed one XOR the syndrome, which is what
`Mem` keeps. DESIGN CHOICE, log entry 58. -/
def storedCheck (m : Mem) (c : Nat) : W8 := m.freshCheck c ^^^ SMap.get (0 : W8) m.synd (c / 8)

/-- The syndrome of the granule of cell `c`. DESIGN CHOICE, log entry 58. -/
def syndOf (m : Mem) (c : Nat) : Synd := readSynd (SMap.get (0 : W8) m.synd (c / 8)).toNat

/-- A byte as a read returns it: corrected under R297; `none` in an uncorrectable granule.
DESIGN CHOICE, log entry 58. -/
def byte? (m : Mem) (c : Nat) : Option W8 :=
  match m.syndOf c with
  | .clean | .check => some (m.raw c)
  | .data i => some (if i / 8 = c % 8 then m.raw c ^^^ BitVec.ofNat 8 (2 ^ (i % 8)) else m.raw c)
  | .addr | .multi => none

/-- The granules among cells that hold a corrected single error. -/
def singles (m : Mem) (cs : List Nat) : List Nat :=
  ((cs.map (· / 8)).eraseDups).filter (fun g => match m.syndOf (g * 8) with
    | .data _ | .check => true
    | _ => false)

/-- Single errors that a write of part of their granule corrects (R149, R297): a whole granule is not read. -/
def mended (m : Mem) (cs : List Nat) : List Nat :=
  (m.singles cs).filter (fun g => decide ((cs.filter (fun c => c / 8 == g)).eraseDups.length < 8))

/-- The first cell, in order, whose granule is uncorrectable. -/
def firstBad (m : Mem) (cs : List Nat) : Option Nat := cs.find? (fun c => (m.byte? c).isNone)

/-- Writes a corrected granule back with a clean syndrome (R297). DEDUCED, log entry 57. -/
def scrubGranule (m : Mem) (g : Nat) : Mem :=
  match m.syndOf (g * 8) with
  | .data i =>
    let c := g * 8 + i / 8
    { m.poke c (m.raw c ^^^ BitVec.ofNat 8 (2 ^ (i % 8))) with
        synd := m.synd.del g, fixes := m.fixes.filter (· != g) }
  | .check => { m with synd := m.synd.del g, fixes := m.fixes.filter (· != g) }
  | _ => { m with fixes := m.fixes.filter (· != g) }

/-- Writes bytes to cells of one granule: a whole granule, or a part of a granule that can be
read, gets a fresh check byte; a part of an uncorrectable one is discarded (R299). Second part:
whether the write was performed. -/
def writeGranule (m : Mem) (g : Nat) (ps : List (Nat × W8)) : Mem × Bool :=
  let whole := decide (8 ≤ (ps.map (·.1)).eraseDups.length)
  let bad := match m.syndOf (g * 8) with
    | .addr | .multi => true
    | _ => false
  if bad && !whole then (m, false)
  else
    let m1 := if bad then { m with synd := m.synd.del g } else m.scrubGranule g
    (ps.foldl (fun m p => m.poke p.1 p.2) m1, true)

/-- Writes bytes to cells, granule by granule in order. Second part: the cells of granules whose
write was discarded. -/
def write (m : Mem) (ps : List (Nat × W8)) : Mem × List Nat :=
  ((ps.map (fun p => p.1 / 8)).eraseDups).foldl
    (fun (acc : Mem × List Nat) g =>
      let mine := ps.filter (fun p => p.1 / 8 == g)
      let (m', ok) := acc.1.writeGranule g mine
      (m', if ok then acc.2 else acc.2 ++ mine.map (·.1))) (m, [])

/-- Clears every cell that meets `p`: zero data with valid check bits (R303). -/
def clearWhere (m : Mem) (p : Nat → Bool) : Mem :=
  { cells := m.cells.filter (fun c => !p c.1)
    synd := m.synd.filter (fun s => !p (s.1 * 8))
    fixes := m.fixes.filter (fun g => !p (g * 8)) }

end Mem

/-- Cells of Granary quadrant `q`. -/
def inQuadrant (q c : Nat) : Bool :=
  decide (granBase ≤ c) && decide (c < pisteBase) && ((c - granBase) / 0x20_0000 / 24 == q)

/-- Cells of Loam stack `k`. -/
def inStack (k c : Nat) : Bool := decide (c < granBase) && (loamCoord c).stack == k

/-- Cells of Piste store `e`. -/
def inStore (e c : Nat) : Bool :=
  decide (pisteBase ≤ c) && decide (c < lsBase) && ((c - pisteBase) / 0x40_0000 == e)

/-- Cells of tiller `n`'s local store and program memory. -/
def inTiller (n c : Nat) : Bool :=
  (decide (lsBase ≤ c) && decide (c < pmBase) && ((c - lsBase) / 0x1_0000 == n)) ||
  (decide (pmBase ≤ c) && ((c - pmBase) / 0x8000 == n))

end Sys2Proof.Machine
end

