-- ==== Sys2Proof/Machine/StAlm.lean ====
section
/-! DEFINITION. Plain data of the Almanac and of what the device sends out. -/

namespace Sys2Proof.Machine

/-- A capture/compare unit (R386). -/
structure CcUnit where
  cfg    : W64 := 0
  time0  : W64 := 0
  time1  : W64 := 0
  period : W64 := 0
  hit    : Bool := false
  skip   : Bool := false
  /-- a compare unit has fired at the CC_TIME it holds -/
  fired  : Bool := false
  deriving DecidableEq, Repr

/-- The Almanac (R384-R388). `time` and `mono` count units of 2^-32 ns. -/
structure Alm where
  time  : Nat := 0
  mono  : Nat := 0
  rate  : W32 := 0
  set0  : W64 := 0
  /-- ALM_T1 as latched for each reader (R385) -/
  t1    : SMap W64 := []
  units : SMap CcUnit := []
  /-- PTM latches: Almanac and master time, 10-byte form as a number, and the master's ns (0x3310) -/
  ptmAlm : Nat := 0
  ptmMaster : W64 := 0
  deriving DecidableEq, Repr

/-- A unit of 257 bits on the device lane that carries it (R389): a data unit or a control unit, and its 32 bytes. -/
structure HUnit where
  lane  : Nat
  data  : Bool
  bytes : List W8
  deriving DecidableEq, Repr

/-- The MACsec association under which a sent frame is protected: the SCI, AN and PN of its SecTAG (R380, R480);
under XPN the tag carries PN [31:0]. DESIGN CHOICE, log entry 178. -/
structure TxSec where
  sci : List W8
  an  : Nat
  pn  : Nat
  deriving DecidableEq, Repr

/-- What leaves the device, in order of leaving (log entry 5): the model's own record. -/
inductive Out where
  /-- an MSI-X message with its vector (R364, R406) -/
  | msix (vec : Nat)
  /-- a write posted to the host window with its attributes, bit 0 Relaxed Ordering and bit 1 No Snoop, and a read
  request with its tag (R295, R404, R405) -/
  | hostWrite (addr attr : Nat) (bytes : List W8)
  | hostRead (tag addr len : Nat)
  /-- a completion to a host read or AtomicOp: success with data, or the error status -/
  | completion (ok : Bool) (bytes : List W8)
  | unsupported
  /-- units of bond `bond`, each on its lane (R389); of a TRAIN unit also the serial number it carries (R394) -/
  | peer (bond : Nat) (units : List HUnit)
  | train (bond serial : Nat) (units : List HUnit)
  /-- an Ethernet frame sent by a port, in the clear, with the association that protects it; `express` frames
  preempt (R257, R380) -/
  | frame (port : Nat) (express : Bool) (bytes : List W8) (sec : Option TxSec)
  /-- a verify frame of a port, with the addFragSize that the port announces (R378) -/
  | verify (port addFragSize : Nat)
  /-- a PAUSE or PFC frame a port sends: priorities and quanta -/
  | pfc (port : Nat) (prio quanta : Nat)
  /-- a frame sent on Mbaros (R491) -/
  | mbaros (bytes : List W8)
  /-- a Pelz message of a session whose frames no command has brought, with the slot and COUNTER it goes under
  (log entry 15) -/
  | pelz (session : Nat) (key : Option (Nat × Nat)) (msg : List W8)
  /-- a pulse or level driven on a GPIO ball -/
  | gpio (ball : Nat) (level : Bool)
  /-- RST_REQ_N driven low or released -/
  | rstReq (low : Bool)
  deriving DecidableEq, Repr

end Sys2Proof.Machine
end

