-- ==== Sys2Proof/Machine/StPort.lean ====
section
/-! DEFINITION. Plain data of the Ethernet ports, the furrows and their port engines, the partner
table and greeting queue, and the Hedgerow bonds. -/

namespace Sys2Proof.Machine

/-- States of a port (R376) in the order of 0x3011's codes. -/
inductive PortSt where
  | disabled | down | hold | up
  deriving DecidableEq, Repr

def PortSt.code : PortSt → Nat
  | .disabled => 0 | .down => 1 | .hold => 2 | .up => 3

/-- An express frame waiting in a port's queue (R256, R257): output furrow, engine, slot and window buffer of the
run, ingress MONO ns of its window's last byte, whether it counts as a miss already, the frame. -/
structure ExpFrame where
  out    : Nat
  engine : Nat
  slot   : Nat
  buf    : Bool
  at_    : Nat
  missed : Bool
  bytes  : List W8
  deriving DecidableEq, Repr

/-- An Ethernet port (R374-R383, R440). Configuration lies in the dictionary objects. DEDUCED, log entry 73. -/
structure Port where
  st      : PortSt := .disabled
  preempting : Bool := false
  /-- the verify exchange of this entry to UP runs (R378) -/
  verify  : Bool := false
  localFault : Bool := false
  remoteFault : Bool := false
  /-- the six frame counters of 0x3013, the eight classifier counters of 0x3014 -/
  frames  : SMap Nat := []
  classes : SMap Nat := []
  /-- queues stopped by an obeyed PAUSE, Bulk priorities stopped by PFC (R377) -/
  paused  : Bool := false
  stopped : W8 := 0
  /-- PFC XOFF of the Bulk priorities is in force (R430) -/
  xoff    : Bool := false
  express : List ExpFrame := []
  /-- other frames that wait behind the express queue or a PAUSE (R257, R377) -/
  held    : List (List W8) := []
  /-- the stored LLDPDU, its arrival time in the 10-byte form and its source address (R381) -/
  lldp    : List W8 := []
  lldpAt  : Nat := 0
  lldpSrc : Nat := 0
  /-- transmit timestamp FIFO (R383) and the entries lost -/
  txts    : List (List W8) := []
  txtsLost : Nat := 0
  /-- greeting budget (R440) -/
  tokens  : Nat := 0
  /-- MACsec: frames dropped, transmit frames discarded, next PN of each transmit SA (R380) -/
  secDrops : Nat := 0
  secTxDrops : Nat := 0
  txPn    : SMap Nat := []
  /-- next PN of each receive SA, by subindex of 0x1060 + p -/
  rxPn    : SMap Nat := []
  badLldp : Nat := 0
  /-- MONO ns of the last source 0x600 + p for FR_ERR, and of the last source 0x610 + p for drops -/
  errAt   : Option Nat := none
  secAt   : Option Nat := none
  deriving DecidableEq, Repr

/-- States of a furrow (FR_STATE, R436). -/
inductive FurSt where
  | disabled | enabled | quiesced | disabling
  deriving DecidableEq, Repr

def FurSt.code : FurSt → Nat
  | .disabled => 0 | .enabled => 1 | .quiesced => 2 | .disabling => 3

/-- How a window was closed by its LAST frame: Almanac time of that moment in the 10-byte form, the
ns from the first frame, and the trailer (R417, R421). -/
structure Closed where
  at_     : Nat
  mono    : Nat
  span    : Nat
  trailer : Option Nat
  deriving DecidableEq, Repr

/-- A window in assembly, or closed and not yet completed (R416). -/
structure Asm where
  id      : Nat
  wseq    : Nat
  bytes   : Nat := 0
  frames  : Nat := 0
  firstMono : Nat := 0
  missed  : Nat := 0
  /-- Piste window buffer, for a window within contract (R254) -/
  buf     : Option Bool := none
  demoted : Bool := false
  closed  : Option Closed := none
  /-- delivery writes not yet acknowledged -/
  pend    : Nat := 0
  /-- its deadline has been missed and counted (R265) -/
  late    : Bool := false
  deriving DecidableEq, Repr

/-- A furrow: context words, runtime registers, counters (R412, R433, R436). -/
structure Furrow where
  ctx     : SMap W64 := []
  st      : FurSt := .disabled
  badrel  : Bool := false
  err     : Bool := false
  P       : W32 := 0
  Q       : W32 := 0
  E       : W32 := 0
  chain   : W64 := 0
  errw    : W64 := 0
  /-- windows in order: all but the last are closed -/
  wins    : List Asm := []
  nextId  : Nat := 0
  /-- the marked WSEQ and the counter its frames count in (R416, R418) -/
  marked  : Option (Nat × Nat) := none
  resync  : Bool := false
  /-- ingress MONO ns of the first frame of the previous window (R258) -/
  prevAt  : Option Nat := none
  ctr     : SMap Nat := []
  deriving DecidableEq, Repr

/-- A frame that waits in a port engine's ingress buffer (R428): its furrow and window, the class
it occupies, its place in the window, its payload, the frame's size. -/
structure QFrame where
  furrow : Nat
  win    : Nat
  /-- 0 Standard, 1 Bulk, 2 Piste -/
  cls    : Nat
  off    : Nat
  bytes  : List W8
  size   : Nat
  deriving DecidableEq, Repr

/-- A delivery write issued and not acknowledged. -/
structure DWrite where
  q  : QFrame
  pa : Nat
  deriving DecidableEq, Repr

/-- State of a deficit round robin: the key whose turn it is, and the deficits. DESIGN CHOICE, log entry 8. -/
structure Drr where
  turn : Nat := 0
  defs : SMap Nat := []
  deriving DecidableEq, Repr

/-- A port engine (R428, R429): ingress buffer, writes in flight, round robins of the classes and of
the Standard furrows, for delivery and for the egress of each port of the quad. -/
structure PortEng where
  queue  : List QFrame := []
  inflight : List DWrite := []
  clsIn  : Drr := {}
  furIn  : Drr := {}
  clsOut : SMap Drr := []
  furOut : SMap Drr := []
  /-- Bulk output furrows in post order -/
  posts  : List Nat := []
  deriving DecidableEq, Repr

/-- A partner table entry (R437). -/
structure Partner where
  st     : Nat := 0
  port   : Nat := 0
  mac    : Nat := 0
  pid    : W64 := 0
  period : Nat := 0
  byRule : Bool := false
  last   : Nat := 0
  /-- last COUNTER accepted, by key slot (R489) -/
  ctr    : SMap Nat := []
  deriving DecidableEq, Repr

/-- A queued greeting (R441). -/
structure Greet where
  mac     : Nat
  port    : Nat
  attempt : Nat
  pid     : W64
  period  : Nat
  at_     : Nat
  ctr     : SMap Nat := []
  deriving DecidableEq, Repr

/-- The partner table, the greeting queue and its event limit. -/
structure Partners where
  table : SMap Partner := []
  queue : List Greet := []
  dropAt : Option Nat := none
  deriving DecidableEq, Repr

/-- States of a bond (0x3401). -/
inductive BondSt where
  | disabled | training | up | mismatch
  deriving DecidableEq, Repr

def BondSt.code : BondSt → Nat
  | .disabled => 0 | .training => 1 | .up => 2 | .mismatch => 3

/-- Who made a write that leaves the device, for its error report (R400, R401): a thread's STX, a seed's
stream with its runner and seed ID, a Drill channel, or the host. -/
inductive WOrig where
  | thread (t k : Nat)
  | seed (t k runner sid : Nat)
  | chan (n c : Nat)
  | host
  deriving DecidableEq, Repr

/-- A packet in the replay buffer or before it (R393): type, offset, tag, status, the bytes a READ asks
for, data, and for a WRITE who made it. -/
structure HPacket where
  seq    : Nat
  type   : Nat
  addr   : Nat
  tag    : Nat
  status : Nat
  bytes  : Nat
  data   : List W8
  who    : Option WOrig := none
  deriving DecidableEq, Repr

/-- Who waits for an outbound read of the host window or a peer window: a thread's LDX, or nobody, where a seed, a
Drill or a port engine made it and took free values at once (log entry 83). -/
inductive Waiter where
  | thread (t k : Nat)
  | taken
  deriving DecidableEq, Repr

/-- An outstanding READ of a bond: its tag, who waits, the bytes asked for. -/
structure HRead where
  tag  : Nat
  who  : Waiter
  n    : Nat
  deriving DecidableEq, Repr

/-- What a peer's TRAIN units say (R394): its bond number, serial number, width in lanes, and its request and response
buffers in units. -/
structure PeerTrain where
  bond   : Nat
  serial : Nat
  lanes  : Nat
  q      : Nat
  s      : Nat
  deriving DecidableEq, Repr

/-- A Hedgerow bond (R389-R401). -/
structure Bond where
  st     : BondSt := .disabled
  /-- lanes running (0x3401) -/
  lanes  : Nat := 0
  /-- SEQ of the last sequenced packet sent, of the last received in order, and the last ACK received -/
  txSeq  : Nat := 0
  rxSeq  : Nat := 0
  acked  : Nat := 0
  /-- packets that wait for credits, in order -/
  txq    : List HPacket := []
  replay : List HPacket := []
  nakSent : Bool := false
  /-- credits of the peer's buffers, by channel, in units -/
  crq    : Nat := 0
  crs    : Nat := 0
  /-- credits to return -/
  retq   : Nat := 0
  rets   : Nat := 0
  reads  : List HRead := []
  /-- who wrote last at each offset of the peer window, for a WERR (R400) -/
  writers : SMap WOrig := []
  resends : Nat := 0
  /-- resend rounds without ACK progress -/
  rounds : Nat := 0
  refused : Nat := 0
  evAt   : Option Nat := none
  /-- ALIGN units found (step 3 of R394), what the peer's TRAIN units said, and that two of them disagreed -/
  aligned : Bool := false
  peer   : Option PeerTrain := none
  mixed  : Bool := false
  /-- device lanes in use, by rank, and the number of the next unit of the stream (R389, R394) -/
  ranks  : List Nat := []
  unit   : Nat := 0
  /-- MONO ns of the last ALIGN units sent (R389) -/
  alignAt : Option Nat := none
  deriving DecidableEq, Repr

end Sys2Proof.Machine
end

