-- ==== Sys2Proof/Machine/StDict.lean ====
section
/-! DEFINITION. Plain data of the Pelz dictionary core (sessions, versions, claims, keys, the
mailbox) and of the PCIe block. -/

namespace Sys2Proof.Machine

/-- Where a frame of a session came from, and so where answers and notices go (R490, R500): the
port, the framing, and the addresses and tags as the frame carried them. -/
structure Route where
  port : Nat
  udp  : Bool
  hdr  : List W8
  deriving DecidableEq, Repr

/-- A Pelz message (R481). `past` marks a mailbox message that runs past the request area (R486). -/
structure Msg where
  op    : Nat
  flags : Nat := 0
  b11   : Nat := 0
  seq   : Nat
  index : Nat := 0
  sub   : Nat := 0
  ver   : Nat := 0
  len   : Nat := 0
  off   : Nat := 0
  val   : List W8 := []
  past  : Bool := false
  deriving DecidableEq, Repr

/-- What an operation of the core goes on with after its first step: DISABLE of a furrow (R434), or the wait of XI_SYNC
for the invalidations of an originator (R310, R329). -/
inductive LongOp where
  | disable (f : Nat)
  | sync (who : Nat)
  deriving DecidableEq, Repr

/-- The operation in progress at the core (R494): what it waits for, its session, where its answer goes, and the
answer; `drop` where the session has ended since. -/
structure Busy where
  ops   : List LongOp
  ses   : Nat := 0
  route : Option Route := none
  resp  : List W8 := []
  seq   : Nat := 0
  drop  : Bool := false
  deriving DecidableEq, Repr

/-- A request that waits for the core, in order of arrival (R494). -/
structure Waiting where
  ses   : Nat
  route : Option Route
  msg   : Msg
  deriving DecidableEq, Repr

/-- A session of the dictionary core (R492, R493). -/
structure Session where
  seq    : Option W32 := none
  resp   : List W8 := []
  /-- segments held of a DOMAIN write: the object, and its 8-byte words by number (R482) -/
  held   : Option (Nat × SMap (List W8)) := none
  accAddr : W64 := 0
  accSize : W8 := 8
  notices : W32 := 0
  route  : Option Route := none
  deriving DecidableEq, Repr

/-- An object claim (R499): object, session, Headland time of its end. -/
structure OClaim where
  obj     : Nat
  session : Nat
  until_  : Nat
  deriving DecidableEq, Repr

/-- The dictionary core. Sessions: 0 the PCIe mailbox, 1 + s key slot s, 5 plain Mbaros. -/
structure Dict where
  sessions : SMap Session := []
  vers     : SMap W16 := []
  oclaims  : List OClaim := []
  /-- resource claim table by index * 256 + subindex (R504) -/
  rclaims  : SMap W16 := []
  owner    : Bool := false
  lapsed   : Bool := false
  takeover : W8 := 0
  /-- Headland time the lapse counts from (R497) -/
  beatAt   : Nat := 0
  /-- keys and roles of the slots 0-3, last COUNTER accepted and own COUNTER (R479, R489) -/
  keys     : SMap (List W8) := []
  roles    : SMap W8 := []
  rxCtr    : SMap Nat := []
  txCtr    : SMap Nat := []
  /-- counters of 0x1034, by transport * 8 + position -/
  counts   : SMap Nat := []
  lastNotice : List W8 := []
  /-- where the last valid Mbaros request came from (R500) -/
  mbRoute  : Option Route := none
  /-- the operation in progress, and the requests that wait for it (R493, R494) -/
  busy     : Option Busy := none
  waiting  : List Waiting := []
  -- the mailbox (R485)
  mbStat   : BitVec 2 := 0
  mbReq    : SMap W8 := []
  mbResp   : SMap W8 := []
  deriving DecidableEq, Repr

/-- A vector of the MSI-X table. -/
structure MsixVec where
  addr : W64 := 0
  data : W32 := 0
  mask : Bool := true
  deriving DecidableEq, Repr

/-- An outbound read in flight: its tag, who waits, and the bytes asked for. -/
structure OutRead where
  tag  : Nat
  who  : Waiter
  addr : Nat
  len  : Nat
  deriving DecidableEq, Repr

/-- The PCIe block (R402-R408). PRESUMED, log entry 85. -/
structure Pcie where
  up       : Bool := false
  busMaster : Bool := false
  msixEn   : Bool := false
  funcMask : Bool := false
  d3       : Bool := false
  cto      : BitVec 4 := 0
  vecs     : SMap MsixVec := []
  pba      : SMap Bool := []
  reads    : List OutRead := []
  nextTag  : Nat := 0
  deriving DecidableEq, Repr

end Sys2Proof.Machine
end

