-- ==== Sys2Proof/Machine/StDrill.lean ====
section
/-! DEFINITION. Plain data of the Drills, the check-value units and the global debug block. -/

namespace Sys2Proof.Machine

/-- States of a channel (CH_STATUS.STATE, R449). -/
inductive ChSt where
  | idle | queued | running | done | error | aborted
  deriving DecidableEq, Repr

def ChSt.code : ChSt → Nat
  | .idle => 0 | .queued => 1 | .running => 2 | .done => 3 | .error => 4 | .aborted => 5

/-- A Drill channel (R449). -/
structure Chan where
  src   : W64 := 0
  dst   : W64 := 0
  count : W32 := 0
  /-- CH_CTRL without its WO bits -/
  ctrl  : W32 := 0
  next  : W64 := 0
  ctx   : W64 := 0
  seq   : W64 := 0
  st    : ChSt := .idle
  abrt  : Bool := false
  side  : BitVec 2 := 0
  code  : W8 := 0
  synd  : W16 := 0
  residue : W32 := 0
  /-- the channel was started by FETCH and has not loaded its first descriptor (R452) -/
  fetch : Bool := false
  /-- the descriptor that ended has CHAIN = 1: the next is to be loaded (R458) -/
  loadNext : Bool := false
  deriving DecidableEq, Repr

/-- A failed write whose failure has not arrived (R461): its channel, its code, its address, its offset in the
descriptor that stands in the registers (0 for an earlier one), and whether its run has ended. -/
structure LateFail where
  ch   : Nat
  code : Nat
  pa   : Nat
  off  : Nat := 0
  old  : Bool := false
  deriving DecidableEq, Repr

/-- A Drill (R446, R462). -/
structure Drill where
  chans : SMap Chan := []
  /-- QUEUED channels in the order their starts were accepted -/
  queue : List Nat := []
  cur   : BitVec 5 := 0
  busy  : Bool := false
  late  : List LateFail := []
  werr  : W64 := 0
  werrCnt : W32 := 0
  deriving DecidableEq, Repr

/-- An attachment of a CVU (R470): a seed by its ID, a run of a Drill channel, a fold of a furrow. -/
inductive Attach where
  | seed (sid : Nat)
  | chan (d c : Nat)
  | fold (furrow : Nat)
  deriving DecidableEq, Repr

/-- ATT of CV_STAT. -/
def Attach.code : Attach → Nat
  | .seed _ => 1 | .chan _ _ => 2 | .fold _ => 3

/-- A check-value unit (R468). -/
structure Cvu where
  alg  : BitVec 3 := 0
  wm1  : BitVec 6 := 0
  refl : Bool := false
  val  : W64 := 0
  poly : W64 := 0
  init : W64 := 0
  xor_ : W64 := 0
  att  : Option Attach := none
  waitq : List Attach := []
  /-- writes of feed registers that wait in the register bridge for the end of a freeze (R468) -/
  held  : List (List W8) := []
  deriving DecidableEq, Repr

/-- The TAP and the global debug block (R546-R568). DESIGN CHOICE, log entry 8. -/
structure Dbg where
  -- TAP: Test-Logic-Reset, instruction register, r of R546
  tlr   : Bool := true
  ir    : W8 := 0x02
  repl  : Bool := false
  -- DBG_ACC
  err   : Bool := false
  code  : W8 := 0
  data  : W64 := 0
  -- global block
  force : Bool := false
  blk   : W64 := 0
  pipe0 : W64 := 0
  pipe1 : W64 := 0
  dxOut0 : W64 := 0
  dxOut1 : W64 := 0
  dxIn0 : W64 := 0
  dxIn1 : W64 := 0
  /-- triggers sent and not yet at the tillers (R565) -/
  trig  : Nat := 0
  deriving DecidableEq, Repr

end Sys2Proof.Machine
end

