-- ==== Sys2Proof/Machine/Fp.lean ====
section
/-! DEFINITION. Floating-point values and their rounding (R111-R120): the four binary formats,
NaN propagation, exact sums and products, one rounding at the end, tininess and flush mode. -/

namespace Sys2Proof.Machine

/-- The conditions of R128 as one byte: [6] FSAT, [5] FINVB, [4] FNV, [3] FDZ, [2] FOF, [1] FUF,
[0] FNX as STATUS holds them (R45), and [7] the subnormal operand of R119. -/
abbrev Cond := BitVec 8

/-- Names of the condition bits (R45, R119). -/
def cDEN : Cond := 0x80
def cSAT : Cond := 0x40
def cINVB : Cond := 0x20
def cNV : Cond := 0x10
def cDZ : Cond := 0x08
def cOF : Cond := 0x04
def cUF : Cond := 0x02
def cNX : Cond := 0x01

/-- A binary format: widths of the exponent and of the trailing significand (R111). -/
structure Fmt where
  ew : Nat
  mw : Nat
  deriving DecidableEq, Repr

def Fmt.bf16 : Fmt := ⟨8, 7⟩
def Fmt.f16 : Fmt := ⟨5, 10⟩
def Fmt.f32 : Fmt := ⟨8, 23⟩
def Fmt.f64 : Fmt := ⟨11, 52⟩

/-- Exponent bias. -/
def Fmt.bias (f : Fmt) : Nat := 2 ^ (f.ew - 1) - 1
/-- Position of the sign bit. -/
def Fmt.signBit (f : Fmt) : Nat := f.ew + f.mw
/-- Bits of +infinity. -/
def Fmt.infBits (f : Fmt) : Nat := (2 ^ f.ew - 1) * 2 ^ f.mw
/-- Bits of the largest finite value. -/
def Fmt.maxBits (f : Fmt) : Nat := f.infBits - 1
/-- Bits of the default NaN (R111). -/
def Fmt.dNaN (f : Fmt) : Nat := f.infBits + 2 ^ (f.mw - 1)
/-- The bits with the sign put in front. -/
def Fmt.withSign (f : Fmt) (neg : Bool) (b : Nat) : Nat := b2n neg * 2 ^ f.signBit + b
/-- Exponent of the smallest subnormal, the quantum below which nothing is kept. -/
def Fmt.qmin (f : Fmt) : Int := 1 - (f.bias : Int) - (f.mw : Int)

/-- A floating-point value: a NaN with its trailing significand of `mw` bits and whether it is
signaling, an infinity, or `m * 2^e` with a sign (zeros keep theirs). -/
inductive FV where
  | nan (neg : Bool) (frac mw : Nat) (sig : Bool)
  | inf (neg : Bool)
  | fin (neg : Bool) (m : Nat) (e : Int)
  deriving DecidableEq, Repr

/-- The value of a bit pattern (R111). -/
def Fmt.decode (f : Fmt) (bits : Nat) : FV :=
  let neg := bitN bits f.signBit
  let ex := fld bits (f.signBit - 1) f.mw
  let fr := bits % 2 ^ f.mw
  if ex = 2 ^ f.ew - 1 then
    if fr = 0 then .inf neg else .nan neg fr f.mw (!bitN fr (f.mw - 1))
  else if ex = 0 then .fin neg fr f.qmin
  else .fin neg (2 ^ f.mw + fr) (f.qmin + (ex : Int) - 1)

/-- Whether a bit pattern is a nonzero subnormal (R118, R119). -/
def Fmt.isSub (f : Fmt) (bits : Nat) : Bool :=
  fld bits (f.signBit - 1) f.mw == 0 && bits % 2 ^ f.mw != 0

/-- The sheaf NaN of R114: payload bits 101 at the top of the trailing significand. -/
def FV.sheafNaN : FV := .nan false 5 3 false

/-- A NaN quietened and carried into format `f` (R112, R114). -/
def Fmt.nanBits (f : Fmt) (neg : Bool) (frac mw : Nat) : Nat :=
  let q := if bitN frac (mw - 1) then frac else frac + 2 ^ (mw - 1)
  let p := if mw ≤ f.mw then q * 2 ^ (f.mw - mw) else q / 2 ^ (mw - f.mw)
  f.withSign neg (f.infBits + p)

def FV.isNaN : FV → Bool
  | .nan .. => true
  | _ => false
def FV.isSig : FV → Bool
  | .nan _ _ _ s => s
  | _ => false
def FV.isZero : FV → Bool
  | .fin _ m _ => m == 0
  | _ => false
def FV.isInf : FV → Bool
  | .inf _ => true
  | _ => false
def FV.sign : FV → Bool
  | .nan n _ _ _ => n
  | .inf n => n
  | .fin n _ _ => n
def FV.negate : FV → FV
  | .nan n a b c => .nan (!n) a b c
  | .inf n => .inf (!n)
  | .fin n m e => .fin (!n) m e
def FV.absV : FV → FV
  | .nan _ a b c => .nan false a b c
  | .inf _ => .inf false
  | .fin _ m e => .fin false m e

/-- A rounding direction (R95): 0 RNE, 1 RTZ, 2 RUP, 3 RDN. -/
abbrev Rnd := Nat

/-- Whether a magnitude with this sign rounds up: last kept bit odd, the dropped part compared
with one half (`cmp` 0 nothing, 1 below, 2 equal, 3 above). -/
def roundsUp (r : Rnd) (neg odd : Bool) (cmp : Nat) : Bool :=
  if cmp = 0 then false
  else match r with
    | 0 => cmp == 3 || (cmp == 2 && odd)
    | 1 => false
    | 2 => !neg
    | _ => neg

/-- `m * 2^e`, plus a fraction of its last place where `st`, rounded to a multiple of `2^q`:
the multiple, and whether the value was inexact. -/
def roundAt (r : Rnd) (neg : Bool) (m : Nat) (e q : Int) (st : Bool) : Nat × Bool :=
  if q ≤ e then (m * 2 ^ (e - q).toNat, st)
  else
    let k := (q - e).toNat
    let n := m / 2 ^ k
    let low := m % 2 ^ k
    let half := 2 ^ (k - 1)
    let cmp :=
      if low = 0 && !st then 0
      else if low < half then 1
      else if low = half && !st then 2
      else 3
    (if roundsUp r neg (n % 2 == 1) cmp then n + 1 else n, cmp != 0)

/-- Rounds a nonzero exact value once to format `f` (R117, R118, R120). -/
def Fmt.round (f : Fmt) (r : Rnd) (ftz : Bool) (neg : Bool) (m : Nat) (e : Int) (st : Bool) :
    Nat × Cond :=
  if m = 0 then (f.withSign neg 0, 0)
  else
    let p : Int := (f.mw : Int) + 1
    let q0 := e + (bitlen m : Int) - p
    let free := (roundAt r neg m e q0 st).1
    let tiny := decide (q0 < f.qmin) && decide (free < 2 ^ (f.qmin + (f.mw : Int) - q0).toNat)
    if tiny && ftz then (f.withSign neg 0, cUF ||| cNX)
    else
      let q := max q0 f.qmin
      let (n, inex) := roundAt r neg m e q st
      let bits := (q - f.qmin).toNat * 2 ^ f.mw + n
      if f.infBits ≤ bits then
        let toInf := r = 0 || (r = 2 && !neg) || (r = 3 && neg)
        (f.withSign neg (if toInf then f.infBits else f.maxBits), cOF ||| cNX)
      else
        (f.withSign neg bits,
          (if inex then cNX else 0) ||| (if tiny && inex then cUF else 0))

/-- A value without a NaN, rounded to `f`. -/
def Fmt.ofFV (f : Fmt) (r : Rnd) (ftz : Bool) (v : FV) (st : Bool) : Nat × Cond :=
  match v with
  | .nan neg fr mw _ => (f.nanBits neg fr mw, 0)
  | .inf neg => (f.withSign neg f.infBits, 0)
  | .fin neg m e => f.round r ftz neg m e st

/-- Exact product; `none` for 0 times infinity (R113). -/
def FV.mul : FV → FV → Option FV
  | .fin a m e, .fin b n f => some (.fin (a != b) (m * n) (e + f))
  | .inf a, .inf b => some (.inf (a != b))
  | .inf a, .fin b n _ => if n = 0 then none else some (.inf (a != b))
  | .fin a m _, .inf b => if m = 0 then none else some (.inf (a != b))
  | _, _ => none

/-- Exact sum; `none` for infinities of opposite sign. An exact zero sum of operands of opposite
sign is -0 under RDN and +0 otherwise (R120). -/
def FV.add (r : Rnd) : FV → FV → Option FV
  | .inf a, .inf b => if a = b then some (.inf a) else none
  | .inf a, .fin .. => some (.inf a)
  | .fin .., .inf b => some (.inf b)
  | .fin a m e, .fin b n f =>
    let q := min e f
    let x : Nat := m * 2 ^ (e - q).toNat
    let y : Nat := n * 2 ^ (f - q).toNat
    if a = b then some (.fin a (x + y) q)
    else if x = y then some (.fin (r == 3) 0 q)
    else if y < x then some (.fin a (x - y) q)
    else some (.fin b (y - x) q)
  | _, _ => none

/-- `m * 2^e` compared with `n * 2^f` as integers over one exponent. -/
def cmpMag (m : Nat) (e : Int) (n : Nat) (f : Int) : Ordering :=
  let q := min e f
  compare (m * 2 ^ (e - q).toNat) (n * 2 ^ (f - q).toNat)

/-- The order of two values that are not NaNs; zeros are equal. -/
def FV.order : FV → FV → Ordering
  | .inf a, .inf b => if a = b then .eq else if a then .lt else .gt
  | .inf a, _ => if a then .lt else .gt
  | _, .inf b => if b then .gt else .lt
  | .fin a m e, .fin b n f =>
    if m = 0 && n = 0 then .eq
    else if m = 0 then (if b then .gt else .lt)
    else if n = 0 then (if a then .lt else .gt)
    else match a, b with
      | false, true => .gt
      | true, false => .lt
      | false, false => cmpMag m e n f
      | true, true => cmpMag n f m e
  | _, _ => .eq

/-- The smaller (or, for `mx`, the larger) of two values that are not NaNs; -0 is below +0 (R116). -/
def FV.minMax (mx : Bool) (a b : FV) : FV :=
  match a.order b with
  | .lt => if mx then b else a
  | .gt => if mx then a else b
  | .eq => if a.sign = mx then b else a

/-- The first NaN among inputs in operand order (R113). -/
def firstNaN (l : List FV) : Option FV := l.find? FV.isNaN

/-- FNV where any input is a signaling NaN (R113). -/
def sigCond (l : List FV) : Cond := if l.any FV.isSig then cNV else 0

/-- The end of every FP operation (R113): the first NaN input quietened, the default NaN for an
invalid operation, otherwise the exact value rounded once. -/
def Fmt.finish (f : Fmt) (r : Rnd) (ftz : Bool) (ins : List FV) (v : Option FV) (st : Bool) : Nat × Cond :=
  match firstNaN ins with
  | some (.nan neg fr mw _) => (f.nanBits neg fr mw, sigCond ins)
  | _ => match v with
    | none => (f.dNaN, cNV)
    | some x => f.ofFV r ftz x st

/-- Exact quotient with enough bits for any format and a sticky bit (R120). -/
def FV.div (a b : FV) : Option FV × Bool × Cond :=
  match a, b with
  | .inf _, .inf _ => (none, false, 0)
  | .inf x, .fin y _ _ => (some (.inf (x != y)), false, 0)
  | .fin x _ _, .inf y => (some (.fin (x != y) 0 0), false, 0)
  | .fin x m e, .fin y n f =>
    if n = 0 then
      if m = 0 then (none, false, 0) else (some (.inf (x != y)), false, cDZ)
    else
      let k := 70 + bitlen n
      let num := m * 2 ^ k
      (some (.fin (x != y) (num / n) (e - f - (k : Int))), num % n != 0, 0)
  | _, _ => (none, false, 0)

/-- Integer square root by bisection on the bits, most significant first. -/
def isqrt (fuel n acc : Nat) : Nat :=
  match fuel with
  | 0 => acc
  | k + 1 =>
    let t := acc + 2 ^ k
    isqrt k n (if t * t ≤ n then t else acc)

/-- Square root with enough bits and a sticky bit; `none` below -0 (R113, R120). -/
def FV.sqrt (a : FV) : Option FV × Bool :=
  match a with
  | .inf n => (if n then none else some (.inf false), false)
  | .fin neg m e =>
    if m = 0 then (some (.fin neg 0 0), false)
    else if neg then (none, false)
    else
      let k : Nat := if e % 2 = 0 then 140 else 141
      let x := m * 2 ^ k
      let s := isqrt (bitlen x / 2 + 1) x 0
      (some (.fin false s ((e - (k : Int)) / 2)), s * s != x)
  | _ => (none, false)

/-- `a * b + c` with one rounding; 0 times infinity is invalid even beside a quiet NaN addend
(R113 rule 4). `ins` are the inputs in operand order. -/
def Fmt.fma (f : Fmt) (r : Rnd) (ftz : Bool) (a b c : FV) (ins : List FV) : Nat × Cond :=
  if !a.isNaN && !b.isNaN && (a.mul b).isNone then (f.dNaN, cNV)
  else f.finish r ftz ins ((a.mul b).bind (fun p => p.add r c)) false

/-- One accumulating step `acc + a * b` with one rounding, of RDOT and SLIDE: a NaN that is accumulated stays
(R113 rule 1), and 0 times infinity is invalid where no input is a NaN (rule 3). -/
def Fmt.mac (f : Fmt) (r : Rnd) (ftz : Bool) (a b acc : FV) (ins : List FV) : Nat × Cond :=
  f.finish r ftz ins ((a.mul b).bind (fun p => p.add r acc)) false

/-- The value rounded to an integer under `r`; second part: whether it was inexact. -/
def FV.toInt (r : Rnd) (neg : Bool) (m : Nat) (e : Int) : Int × Bool :=
  let (n, ix) := roundAt r neg m e 0 false
  (if neg then -(n : Int) else (n : Int), ix)

/-- An exact integer as a value. -/
def FV.ofInt (i : Int) : FV := .fin (decide (i < 0)) i.natAbs 0

end Sys2Proof.Machine
end

