-- ==== Sys2Proof/Machine/Elem.lean ====
section
/-! DEFINITION. Element arithmetic of seeds (R50, R53, R94-R131): element types, integer
wrap and saturation, sheaf decoding and re-quantization, every elementwise operation,
strip partials of reductions, scans, SLIDE, DOT4 and BFLY. Pure functions of operand values. -/

namespace Sys2Proof.Machine

/-- Element types (R50). -/
inductive ETy where
  | u8 | i8 | sh8 | u16 | i16 | u32 | i32 | i64 | bf16 | f16 | f32 | f64 | bit
  deriving DecidableEq, Repr

/-- The type a code names; codes 0xD-0xF are reserved (R50). -/
def ETy.ofCode : Nat → Option ETy
  | 0 => some .u8 | 1 => some .i8 | 2 => some .sh8 | 3 => some .u16 | 4 => some .i16
  | 5 => some .u32 | 6 => some .i32 | 7 => some .i64 | 8 => some .bf16 | 9 => some .f16
  | 10 => some .f32 | 11 => some .f64 | 12 => some .bit | _ => none

/-- Width in bits. -/
def ETy.bits : ETy → Nat
  | .u8 | .i8 | .sh8 => 8
  | .u16 | .i16 | .bf16 | .f16 => 16
  | .u32 | .i32 | .f32 => 32
  | .i64 | .f64 => 64
  | .bit => 1

/-- Size in bytes of a byte-sized or wider element. -/
def ETy.size (t : ETy) : Nat := (t.bits + 7) / 8

def ETy.isInt : ETy → Bool
  | .u8 | .i8 | .u16 | .i16 | .u32 | .i32 | .i64 => true
  | _ => false
def ETy.isFP : ETy → Bool
  | .bf16 | .f16 | .f32 | .f64 => true
  | _ => false
def ETy.signed : ETy → Bool
  | .i8 | .i16 | .i32 | .i64 => true
  | _ => false
def ETy.fmt : ETy → Fmt
  | .bf16 => .bf16 | .f16 => .f16 | .f64 => .f64 | _ => .f32

/-- Largest and smallest value of an integer type. -/
def ETy.maxI (t : ETy) : Int := if t.signed then 2 ^ (t.bits - 1) - 1 else 2 ^ t.bits - 1
def ETy.minI (t : ETy) : Int := if t.signed then -(2 ^ (t.bits - 1)) else 0

/-- An FP type that holds every value of `a` exactly (R54). -/
def ETy.widens (a d : ETy) : Bool :=
  a == d || (match a, d with
    | .bf16, .f32 | .bf16, .f64 | .f16, .f32 | .f16, .f64 | .f32, .f64 => true
    | _, _ => false)

/-- The arithmetic mode of an operation: rounding, flush mode, SAT. -/
structure AMode where
  rnd : Rnd
  ftz : Bool
  sat : Bool
  deriving DecidableEq, Repr

/-- An operand element as read: its bits, its integer or FP value, and the conditions its read
raises (FINVB for an invalid sheaf block, R106; the subnormal operand of R119). -/
structure Opnd where
  raw : Nat
  i   : Int
  fv  : FV
  c   : Cond
  deriving DecidableEq, Repr

/-- Decodes mantissa byte `m` under scale byte `e` (R105). -/
def sheafDecode (m e : Nat) : FV × Cond :=
  if e = 0 || e = 0xFF then (FV.sheafNaN, cINVB)
  else
    let i := sx 8 m
    (.fin (decide (i < 0)) i.natAbs ((e : Int) - 127), 0)

/-- Reads one element; `scale` is its scale byte for SH8. Flush mode reads a subnormal FP input
as zero with its sign (R118), after the test of R119. -/
def readOpnd (t : ETy) (ftz : Bool) (raw scale : Nat) : Opnd :=
  if t.isInt then ⟨raw, if t.signed then sx t.bits raw else (raw : Int), .fin false 0 0, 0⟩
  else if t.isFP then
    let sub := t.fmt.isSub raw
    let v := t.fmt.decode raw
    ⟨raw, 0, if sub && ftz then .fin v.sign 0 0 else v, if sub then cDEN else 0⟩
  else if t = .sh8 then
    let (v, c) := sheafDecode raw scale
    ⟨raw, 0, v, c⟩
  else ⟨raw, (raw : Int), .fin false 0 0, 0⟩

/-- The exact integer converted to `t`: wrapped, or clamped with FSAT (R98). -/
def intConv (t : ETy) (sat : Bool) (i : Int) : Nat × Cond :=
  if sat && decide (t.maxI < i) then (wrapI t.bits t.maxI, cSAT)
  else if sat && decide (i < t.minI) then (wrapI t.bits t.minI, cSAT)
  else (wrapI t.bits i, 0)

/-- A destination element: bits of TD, or the exact value that goes to re-quantization when TD is
SH8 (R107). -/
inductive ERes where
  | bits (n : Nat)
  | val (v : FV)
  deriving DecidableEq, Repr

/-- The format FP results are rounded in: TD's, and binary32 for an SH8 destination (R107). -/
def workFmt (td : ETy) : Fmt := td.fmt

/-- An FP result of format `workFmt td` as a destination element. -/
def asRes (td : ETy) (x : Nat × Cond) (c : Cond) : ERes × Cond :=
  (if td = .sh8 then .val ((workFmt td).decode x.1) else .bits x.1, x.2 ||| c)

/-- The six quiet relations and unordered of R116, by code 0 EQ, 1 NE, 2 LT, 3 LE, 4 GT, 5 GE, 6 UN. -/
def relHolds (code : Nat) (unord : Bool) (o : Ordering) : Bool :=
  match code with
  | 0 => !unord && o == .eq
  | 1 => unord || o != .eq
  | 2 => !unord && o == .lt
  | 3 => !unord && o != .gt
  | 4 => !unord && o == .gt
  | 5 => !unord && o != .lt
  | _ => unord

/-- Compares two operands of one kind (R116). -/
def compareOp (t : ETy) (code : Nat) (a b : Opnd) : Bool × Cond :=
  if t.isInt then (relHolds code false (compare a.i b.i), 0)
  else
    let un := a.fv.isNaN || b.fv.isNaN
    (relHolds code un (a.fv.order b.fv), sigCond [a.fv, b.fv] ||| a.c ||| b.c)

/-- An exact value converted to an FP type by CVT (R121): rounded once; FOF also where the value
lies beyond TD's range though the direction rounds it to the largest finite value (R127, log 20).
DEDUCED, log entry 20. -/
def cvtToFP (td : ETy) (m : AMode) (v : FV) : Nat × Cond :=
  let f := td.fmt
  let (b, c) := f.finish m.rnd m.ftz [v] (some v) false
  let beyond : Bool := match v with
    | .fin _ mm e => (match f.decode f.maxBits with
        | .fin _ xm xe => cmpMag mm e xm xe == .gt
        | _ => false)
    | _ => false
  (b, if beyond then c ||| cOF ||| cNX else c)

/-- CVT (R121). -/
def cvtOp (ta td : ETy) (m : AMode) (a : Opnd) : ERes × Cond :=
  let src : FV := if ta.isInt then FV.ofInt a.i else a.fv
  if td = .sh8 then (.val src, a.c)
  else if td.isInt then
    if ta.isInt then
      let (n, c) := intConv td m.sat a.i
      (.bits n, c)
    else match src with
      | .nan .. => (.bits 0, cNV ||| a.c)
      | .inf neg => (.bits (wrapI td.bits (if neg then td.minI else td.maxI)), cNV ||| a.c)
      | .fin neg mm e =>
        let (i, ix) := FV.toInt m.rnd neg mm e
        if td.maxI < i then (.bits (wrapI td.bits td.maxI), cNV ||| a.c)
        else if i < td.minI then (.bits (wrapI td.bits td.minI), cNV ||| a.c)
        else (.bits (wrapI td.bits i), (if ix then cNX else 0) ||| a.c)
  else
    let (n, c) := cvtToFP td m src
    (.bits n, c ||| a.c)

/-- Integer elementwise results before narrowing (R98-R101); `none` for a bitwise result. -/
def intOp (op : Nat) (t : ETy) (a b s : Opnd) : Int :=
  let cnt := b.raw % t.bits
  match op with
  | 0x01 => a.i + b.i
  | 0x02 => a.i - b.i
  | 0x03 => a.i * b.i
  | 0x04 => min a.i b.i
  | 0x05 => max a.i b.i
  | 0x06 => (a.i.natAbs : Int)
  | 0x07 => -a.i
  | 0x0C => a.i * 2 ^ cnt
  | 0x0D => a.i / 2 ^ cnt
  | 0x13 => s.i * a.i + b.i
  | _ => a.i

/-- Whether SAT applies to the integer operation (R98, R99). -/
def satApplies (op : Nat) : Bool := [0x01, 0x02, 0x03, 0x06, 0x07, 0x13, 0x0C].contains op

/-- FP elementwise results (R115, R116, R120), in the work format of TD. -/
def fpOp (op : Nat) (td : ETy) (m : AMode) (a b s : Opnd) : Nat × Cond :=
  let f := workFmt td
  let ins := [a.fv, b.fv]
  let fin := f.finish m.rnd m.ftz
  match op with
  | 0x01 => fin ins (a.fv.add m.rnd b.fv) false
  | 0x02 =>
    if a.fv.isNaN || b.fv.isNaN then fin ins none false
    else fin ins (a.fv.add m.rnd b.fv.negate) false
  | 0x03 => fin ins (a.fv.mul b.fv) false
  | 0x04 => fin ins (some (FV.minMax false a.fv b.fv)) false
  | 0x05 => fin ins (some (FV.minMax true a.fv b.fv)) false
  | 0x10 =>
    let (v, st, c) := a.fv.div b.fv
    let (n, c2) := fin ins v st
    (n, if a.fv.isNaN || b.fv.isNaN then c2 else c ||| c2)
  | 0x11 =>
    let (v, st) := a.fv.sqrt
    fin [a.fv] v st
  | 0x12 => f.fma m.rnd m.ftz a.fv b.fv s.fv [a.fv, b.fv, s.fv]
  | _ => f.fma m.rnd m.ftz s.fv a.fv b.fv [a.fv, b.fv, s.fv]

/-- ABS and NEG on FP data act on the sign bit alone (R115); on a sheaf operand the exact value is
formed and rounded to TD (R107). DEDUCED, log entry 32. -/
def signOp (neg : Bool) (ta td : ETy) (m : AMode) (a : Opnd) : ERes × Cond :=
  if ta.isFP && ta = td then
    let sb := 2 ^ ta.fmt.signBit
    let mag := a.raw % sb
    (.bits (if neg then (if bitN a.raw ta.fmt.signBit then mag else sb + mag) else mag), 0)
  else
    let v := if neg then a.fv.negate else a.fv.absV
    asRes td ((workFmt td).ofFV m.rnd m.ftz v false) (a.c &&& cINVB)

/-- One elementwise operation of R53 (every OP marked "element" but the scans), with the
conditions it raises. `sel` is the selector bit of SEL. DEDUCED, log entry 32. -/
def elemOp (op : Nat) (ta td : ETy) (m : AMode) (a b s : Opnd) (sel : Bool) : ERes × Cond :=
  match op with
  | 0x08 => (.bits (Nat.land a.raw b.raw), 0)
  | 0x09 => (.bits (Nat.lor a.raw b.raw), 0)
  | 0x0A => (.bits (Nat.xor a.raw b.raw), 0)
  | 0x0B => (.bits (2 ^ td.bits - 1 - a.raw), 0)
  | 0x20 => (.bits (if sel then a.raw else b.raw), 0)
  | 0x21 => if ta = .sh8 then asRes td ((workFmt td).ofFV m.rnd m.ftz a.fv false) a.c
            else (.bits a.raw, 0)
  | 0x22 => (.bits s.raw, 0)
  | 0x28 => cvtOp ta td m a
  | 0x30 => (.bits (wrapI td.bits (a.i * b.i)), 0)
  | 0x06 => if ta.isInt then
              let (n, c) := intConv td m.sat (intOp op ta a b s)
              (.bits n, c)
            else signOp false ta td m a
  | 0x07 => if ta.isInt then
              let (n, c) := intConv td m.sat (intOp op ta a b s)
              (.bits n, c)
            else signOp true ta td m a
  | _ =>
    if 0x18 ≤ op && op ≤ 0x1E then
      let (r, c) := compareOp ta (op - 0x18) a b
      (.bits (b2n r), c)
    else if ta.isInt then
      let (n, c) := intConv td (m.sat && satApplies op) (intOp op ta a b s)
      (.bits n, c)
    else
      let used := if op = 0x12 || op = 0x13 then a.c ||| b.c ||| s.c
                  else if op = 0x11 then a.c else a.c ||| b.c
      asRes td (fpOp op td m a b s) used

/-- `v * 2^k` rounded to the nearest integer, ties to even (R108). -/
def rneScaled (v : FV) (k : Int) : Int :=
  match v with
  | .fin neg m e => (FV.toInt 0 neg m (e + k)).1
  | _ => 0

/-- The scale byte of a block without NaN or infinity: the smallest that lets every enabled
value fit (R108), searched upward from `e`. -/
def fitScale (fuel e : Nat) (vs : List FV) : Nat :=
  match fuel with
  | 0 => 0xFE
  | k + 1 =>
    if vs.all (fun v => let n := rneScaled v (127 - (e : Int)); decide (-128 ≤ n) && decide (n ≤ 127))
    then e else fitScale k (e + 1) vs

/-- Re-quantizes one block of values with its enables: scale byte, data bytes, conditions (R108-R110). -/
def requantize (vs : List (FV × Bool)) : Nat × List Nat × Cond :=
  let on := (vs.filter (·.2)).map (·.1)
  if on.any FV.isNaN then (0xFF, vs.map (fun _ => 0), 0)
  else if on.all FV.isZero then (0x7F, vs.map (fun _ => 0), 0)
  else
    let e := if on.any FV.isInf then 0xFE else fitScale 254 1 on
    let one (p : FV × Bool) : Nat × Cond :=
      if !p.2 then (0, 0)
      else match p.1 with
        | .inf neg => (wrapI 8 (if neg then -128 else 127), cSAT ||| cNX)
        | .fin neg m x =>
          let n := rneScaled p.1 (127 - (e : Int))
          let cl := max (-128) (min 127 n)
          let back : FV := .fin (decide (cl < 0)) cl.natAbs ((e : Int) - 127)
          let same := (FV.fin neg m x).order back == .eq
          (wrapI 8 cl, (if same then 0 else cNX) ||| (if cl = n then 0 else cSAT))
        | _ => (0, 0)
    let r := vs.map one
    (e, r.map (·.1), r.foldl (fun c p => c ||| p.2) 0)

/-- The partial result of a strip: an exact integer or the bits of an FP value of TD, and the
lowest-index enabled input NaN, in TD's bits, where there is one (R123). -/
structure PVal where
  v   : Int := 0
  nan : Option Nat := none
  deriving DecidableEq, Repr

/-- Kinds of reduction: sum, minimum, maximum, AND, OR. -/
inductive RedK where
  | sum | mn | mx | band | bor
  deriving DecidableEq, Repr

/-- The kind of reduction of an operation code (R53). -/
def redKind (op : Nat) : RedK :=
  match op with
  | 0x39 | 0x41 => .mn
  | 0x3A | 0x42 => .mx
  | 0x3B => .band
  | 0x3C => .bor
  | _ => .sum

/-- Identity of a reduction or scan in TD (R104). -/
def identity (k : RedK) (ta td : ETy) : Int :=
  if td.isFP then
    match k with
    | .mn => (td.fmt.infBits : Int)
    | .mx => (td.fmt.withSign true td.fmt.infBits : Int)
    | _ => (td.fmt.withSign true 0 : Int)
  else match k with
    | .mn => td.maxI
    | .mx => td.minI
    | .band => if ta = .bit then 1 else 2 ^ td.bits - 1
    | _ => 0

/-- One fold of two partials (R122, R222): one IEEE addition or an exact operation, with its
conditions. The input NaN of the lower strips comes first (R123). -/
def combineP (k : RedK) (td : ETy) (m : AMode) (x y : PVal) : PVal × Cond :=
  let nan := match x.nan with
    | some n => some n
    | none => y.nan
  if td.isFP then
    let f := td.fmt
    let a := f.decode x.v.toNat
    let b := f.decode y.v.toNat
    let r := match k with
      | .mn => f.finish m.rnd m.ftz [a, b] (some (FV.minMax false a b)) false
      | .mx => f.finish m.rnd m.ftz [a, b] (some (FV.minMax true a b)) false
      | _ => f.finish m.rnd m.ftz [a, b] (a.add m.rnd b) false
    (⟨(r.1 : Int), nan⟩, r.2)
  else
    let v : Int := match k with
      | .sum => x.v + y.v
      | .mn => min x.v y.v
      | .mx => max x.v y.v
      | .band => (Nat.land x.v.toNat y.v.toNat : Int)
      | .bor => (Nat.lor x.v.toNat y.v.toNat : Int)
    (⟨v, nan⟩, 0)

/-- An element as it enters a reduction: enabled, its operand A and, for RDOT, B. -/
structure RIn where
  en : Bool
  a  : Opnd
  b  : Opnd
  deriving DecidableEq, Repr

/-- The contribution of one element to an accumulator: the new accumulator and its conditions. An SH8 element of
2^128 or more, which no F32 holds, is added exactly and the sum rounded once. DESIGN CHOICE, log entry 167. -/
def redStep (k : RedK) (dot : Bool) (ta td : ETy) (m : AMode) (p : PVal) (x : RIn) : PVal × Cond :=
  if !x.en then (p, 0)
  else if td.isFP then
    let f := td.fmt
    let acc := f.decode p.v.toNat
    let ins := if dot then [x.a.fv, x.b.fv] else [x.a.fv]
    let nan := match p.nan, firstNaN ins with
      | some n, _ => some n
      | none, some (.nan neg fr mw _) => some (f.nanBits neg fr mw)
      | none, _ => none
    let r :=
      if dot then f.mac m.rnd m.ftz x.a.fv x.b.fv acc [x.a.fv, x.b.fv, acc]
      else match k with
        | .mn => f.finish m.rnd m.ftz [acc, x.a.fv] (some (FV.minMax false acc x.a.fv)) false
        | .mx => f.finish m.rnd m.ftz [acc, x.a.fv] (some (FV.minMax true acc x.a.fv)) false
        | _ => f.finish m.rnd m.ftz [acc, x.a.fv] (acc.add m.rnd x.a.fv) false
    (⟨(r.1 : Int), nan⟩, r.2 ||| x.a.c ||| (if dot then x.b.c else 0))
  else
    let v := if dot then x.a.i * x.b.i
             else if k = .band || k = .bor || ta = .bit then (x.a.raw : Int) else x.a.i
    ((combineP k td m p ⟨v, none⟩).1, 0)

/-- Runs a reduction over the elements one lane at a time: element j goes to lane j mod L (R122).
Answers the lanes and the conditions of each element in index order. -/
def redLanes (k : RedK) (dot : Bool) (ta td : ETy) (m : AMode) (L : Nat) :
    List RIn → Nat → SMap PVal → List Cond → SMap PVal × List Cond
  | [], _, lanes, cs => (lanes, cs.reverse)
  | x :: xs, j, lanes, cs =>
    let q := j % L
    let (p, c) := redStep k dot ta td m (lanes.get ⟨identity k ta td, none⟩ q) x
    redLanes k dot ta td m L xs (j + 1) (lanes.put q p) (c :: cs)

/-- Folds the lanes in halves (R122): lane q takes lane q + h. -/
def foldLanes (k : RedK) (ta td : ETy) (m : AMode) : Nat → Nat → SMap PVal → Cond → SMap PVal × Cond
  | 0, _, lanes, c => (lanes, c)
  | fuel + 1, h, lanes, c =>
    if h = 0 then (lanes, c)
    else
      let z : PVal := ⟨identity k ta td, none⟩
      let (lanes', c') := (List.range h).foldl
        (fun (acc : SMap PVal × Cond) q =>
          let (p, e) := combineP k td m (acc.1.get z q) (acc.1.get z (q + h))
          (acc.1.put q p, acc.2 ||| e)) (lanes, c)
      foldLanes k ta td m fuel (h / 2) lanes' c'

/-- Exact sum of the products of a sheaf RDOT strip, rounded once (R107). -/
def sheafDot (m : AMode) (xs : List RIn) : PVal × List Cond × Cond :=
  let cs := xs.map (fun x => if x.en then x.a.c ||| x.b.c else 0)
  let nan := xs.findSome? (fun x =>
    if !x.en then none else match firstNaN [x.a.fv, x.b.fv] with
      | some (.nan neg fr mw _) => some (Fmt.f32.nanBits neg fr mw)
      | _ => none)
  let sum := xs.foldl (fun (acc : FV) x =>
    if !x.en || x.a.fv.isNaN || x.b.fv.isNaN then acc
    else match x.a.fv.mul x.b.fv with
      | some p => (acc.add m.rnd p).getD acc
      | none => acc) (.fin true 0 0)
  match nan with
  | some n => (⟨(n : Int), some n⟩, cs, 0)
  | none =>
    let (r, c) := Fmt.f32.ofFV m.rnd m.ftz sum false
    (⟨(r : Int), none⟩, cs, c)

/-- Number of accumulators of an FP strip partial (R122). -/
def lanesOf (td : ETy) : Nat :=
  match td with
  | .bf16 | .f16 => 32
  | .f32 => 16
  | _ => 4

/-- The strip partial of a reduction: the partial, the conditions of each element, and those of
the fold of the lanes, which R131 gives to the strip's first index. The input NaN of lowest index
wins (R123). -/
def stripPartial (op : Nat) (ta td : ETy) (m : AMode) (xs : List RIn) : PVal × List Cond × Cond :=
  let k := redKind op
  let dot := op == 0x3D
  if dot && ta = .sh8 then sheafDot m xs
  else
    let L := if td.isFP then lanesOf td else 1
    let (lanes, cs) := redLanes k dot ta td m L xs 0 [] []
    let (fin, c) := foldLanes k ta td m 8 (L / 2) lanes 0
    let p := fin.get ⟨identity k ta td, none⟩ 0
    let nan := xs.findSome? (fun x =>
      if !x.en || !td.isFP then none
      else match firstNaN (if dot then [x.a.fv, x.b.fv] else [x.a.fv]) with
        | some (.nan neg fr mw _) => some (td.fmt.nanBits neg fr mw)
        | _ => none)
    (⟨p.v, nan⟩, cs, c)

/-- The value a reduction writes: the input NaN where there was one, else the exact result
converted to TD once (R98, R103, R123). -/
def finishP (td : ETy) (sat : Bool) (k : RedK) (p : PVal) : Nat × Cond :=
  if td.isFP then ((p.nan.getD p.v.toNat), 0)
  else if k = .sum then intConv td sat p.v
  else (wrapI td.bits p.v, 0)

/-- One pass of a scan over a strip (R124, R103): running value `s` from the identity, results
written with carry `carry` (none in strip 0). Answers the written values with the conditions of
each index, in index order, and the strip total. In an exclusive scan the addition of
A[i] keeps index i. DEDUCED, log entry 34; DESIGN CHOICE, log entry 166. -/
def scanStrip (op : Nat) (ta : ETy) (m : AMode) (excl : Bool) (carry : Option PVal) :
    List RIn → PVal → List (Nat × Cond) → List (Nat × Cond) × PVal
  | [], s, out => (out.reverse, s)
  | x :: xs, s, out =>
    let k := redKind op
    let (s', c) := redStep k false ta ta m s x
    let put (t : PVal) : Nat × Cond := match carry with
      | none => finishP ta m.sat k t
      | some cy =>
        let (p, e) := combineP k ta m cy t
        let (n, e2) := finishP ta m.sat k p
        (n, e ||| e2)
    let (n, e) :=
      if !excl then put s'
      else if out.isEmpty then
        (match carry with
          | none => finishP ta m.sat k ⟨identity k ta ta, none⟩
          | some cy => finishP ta m.sat k cy)
      else put s
    scanStrip op ta m excl carry xs s' ((n, c ||| e) :: out)

/-- One SLIDE result (R56, R103, R125): integers exactly with one conversion, FP and sheaf in
binary32 with one rounding a step. DEDUCED, log entry 33. -/
def slideElem (ta : ETy) (m : AMode) (as taps : List Opnd) : Nat × Cond :=
  if ta.isInt then
    intConv .i32 m.sat ((as.zip taps).foldl (fun (acc : Int) p => acc + p.1.i * p.2.i) 0)
  else
    let f := Fmt.f32
    (as.zip taps).foldl (fun (acc : Nat × Cond) p =>
      let pv := f.decode acc.1
      let (n, c) := f.mac m.rnd m.ftz p.1.fv p.2.fv pv [pv, p.1.fv, p.2.fv]
      (n, acc.2 ||| c ||| p.1.c ||| p.2.c)) (f.withSign true 0, 0)

/-- One DOT4 result (R59, R99, R125). -/
def dot4Elem (ta : ETy) (m : AMode) (as bs : List Opnd) : Nat × Cond :=
  if ta = .sh8 then
    let c := (as ++ bs).foldl (fun c o => c ||| o.c) 0
    if (as ++ bs).any (fun o => o.fv.isNaN) then (Fmt.f32.nanBits false 5 3, c)
    else
      let sum := (as.zip bs).foldl (fun (acc : FV) p =>
        match p.1.fv.mul p.2.fv with
        | some q => (acc.add m.rnd q).getD acc
        | none => acc) (.fin false 0 0)
      let (n, c2) := Fmt.f32.ofFV m.rnd m.ftz (if sum.isZero then .fin false 0 0 else sum) false
      (n, c ||| c2)
  else (wrapI 32 ((as.zip bs).foldl (fun (acc : Int) p => acc + p.1.i * p.2.i) 0), 0)

/-- A complex value: the bits of its two components (R54: real at the lower address). -/
structure Cx where
  re : Nat
  im : Nat
  deriving DecidableEq, Repr

/-- One rounding of an FP sum of two bit patterns. -/
def addBits (f : Fmt) (m : AMode) (x y : Nat) : Nat × Cond :=
  let a := f.decode x
  let b := f.decode y
  f.finish m.rnd m.ftz [a, b] (a.add m.rnd b) false

/-- A component of a complex product with one rounding: `x1*w1 + x2*w2` exactly, the data
components ahead of the twiddle components among NaN inputs (R126). -/
def mulComp (f : Fmt) (m : AMode) (xre xim wre wim : FV) (x1 w1 x2 w2 : FV) (neg2 : Bool) : Nat × Cond :=
  let ins := [xre, xim, wre, wim]
  let q2 := (x2.mul w2).map (fun v => if neg2 then v.negate else v)
  let v := match x1.mul w1, q2 with
    | some p, some q => p.add m.rnd q
    | _, _ => none
  f.finish m.rnd m.ftz ins v false

/-- Flushes a subnormal input in flush mode (R118); with the condition of R119. -/
def flushIn (f : Fmt) (m : AMode) (x : Nat) : Nat × Cond :=
  if f.isSub x then (if m.ftz then f.withSign (bitN x f.signBit) 0 else x, cDEN) else (x, 0)

def Cx.flush (f : Fmt) (m : AMode) (x : Cx) : Cx × Cond :=
  let (r, c) := flushIn f m x.re
  let (i, d) := flushIn f m x.im
  (⟨r, i⟩, c ||| d)

/-- The rounded complex product of data `x` by twiddle `w` (R126). -/
def cmul (f : Fmt) (m : AMode) (w x : Cx) : Cx × Cond :=
  let xr := f.decode x.re
  let xi := f.decode x.im
  let wr := f.decode w.re
  let wi := f.decode w.im
  let (r, c) := mulComp f m xr xi wr wi xr wr xi wi true
  let (i, d) := mulComp f m xr xi wr wi xi wr xr wi false
  (⟨r, i⟩, c ||| d)

/-- The sign of a bit pattern inverted. -/
def negBits (f : Fmt) (x : Nat) : Nat :=
  if bitN x f.signBit then x - 2 ^ f.signBit else x + 2 ^ f.signBit

/-- The sign inverted for a subtraction: a NaN keeps its own sign (R113). DEDUCED, log entry 33. -/
def subBits (f : Fmt) (x : Nat) : Nat := if (f.decode x).isNaN then x else negBits f x

/-- `x` times i^k: components exchanged and negated, exact (R126). DEDUCED, log entry 33. -/
def timesI (f : Fmt) (k : Nat) (x : Cx) : Cx :=
  match k % 4 with
  | 0 => x
  | 1 => ⟨negBits f x.im, x.re⟩
  | 2 => ⟨negBits f x.re, negBits f x.im⟩
  | _ => ⟨x.im, negBits f x.re⟩

def caddBits (f : Fmt) (m : AMode) (x y : Cx) : Cx × Cond :=
  let (r, c) := addBits f m x.re y.re
  let (i, d) := addBits f m x.im y.im
  (⟨r, i⟩, c ||| d)

/-- One butterfly (R57, R126): data X_0.. and twiddles W_1.., radix 2 or 4, `inv` for +i. In flush mode a
subnormal twiddle enters the arithmetic as zero. DEDUCED, log entries 33 and 162. -/
def butterfly (f : Fmt) (m : AMode) (radix4 inv : Bool) (xs ws : List Cx) : List Cx × Cond :=
  let xs' := xs.map (Cx.flush f m)
  let ws' := ws.map (Cx.flush f m)
  let c0 := (xs' ++ ws').foldl (fun c p => c ||| p.2) 0
  match xs'.map (·.1) with
  | [] => ([], c0)
  | x0 :: rest =>
    let ps := (rest.zip (ws'.map (·.1))).map (fun p => cmul f m p.2 p.1)
    let c1 := ps.foldl (fun c p => c ||| p.2) c0
    let terms := x0 :: ps.map (·.1)
    let out (q : Nat) : Cx × Cond :=
      (terms.drop 1).zipIdx.foldl (fun (acc : Cx × Cond) p =>
        let k := (p.2 + 1) * q
        let t := if radix4 then timesI f (if inv then k else 3 * k) p.1
                 else if q = 0 then p.1
                 else ⟨subBits f p.1.re, subBits f p.1.im⟩
        let (s, c) := caddBits f m acc.1 t
        (s, acc.2 ||| c)) (x0, 0)
    let rs := (List.range (if radix4 then 4 else 2)).map out
    (rs.map (·.1), rs.foldl (fun c p => c ||| p.2) c1)

/-- The cause a set of conditions traps with under AMODE's enables (R130): the first enabled
condition in the table's order, 0 for none. Bits: TDEN 12, TINVB 11, TSAT 10, TNV 9 .. TNX 5. -/
def trapCause (amode : Nat) (c : Cond) : Nat :=
  let hit (cb : Cond) (en : Nat) : Bool := (c &&& cb) != 0 && bitN amode en
  if hit cDEN 12 then 1 else if hit cINVB 11 then 2 else if hit cNV 9 then 3
  else if hit cDZ 8 then 4 else if hit cOF 7 then 5 else if hit cUF 6 then 6
  else if hit cNX 5 then 7 else if hit cSAT 10 then 8 else 0

end Sys2Proof.Machine
end

