-- ==== Sys2Proof/Machine/StPiste.lean ====
section
/-! DEFINITION. Plain data of the Piste engines, their slots, queues and monitors. -/

namespace Sys2Proof.Machine

/-- States of a program slot, in the order of 0x5101's codes (R248). -/
inductive SlotSt where
  | empty | admitted | refused | withdrawing
  deriving DecidableEq, Repr

def SlotSt.code : SlotSt → Nat
  | .empty => 0 | .admitted => 1 | .refused => 2 | .withdrawing => 3

/-- A program slot (R239, R241, R248). DEDUCED, log entry 66. -/
structure PSlot where
  cfg   : W32 := 0
  wbuf0 : W32 := 0
  wbuf1 : W32 := 0
  wlen  : W32 := 0
  rbuf0 : W32 := 0
  rbuf1 : W32 := 0
  rlen  : W32 := 0
  runs  : W16 := 0
  void_ : Bool := false
  ue    : Bool := false
  flags : Cond := 0
  /-- descriptors: word w of descriptor j at 8 * j + w -/
  descs : SMap W64 := []
  st    : SlotSt := .empty
  reason : BitVec 4 := 0
  failJ : BitVec 4 := 0
  fcode : BitVec 6 := 0
  cycles : Nat := 0
  furrow : Nat := 0
  /-- the window buffer the next window goes to (R254) -/
  cur   : Bool := false
  /-- window buffers in use -/
  wbusy0 : Bool := false
  wbusy1 : Bool := false
  deriving DecidableEq, Repr

/-- A run of a slot on window buffer `buf`, with the ingress time of its window's last byte on MONO. -/
structure PRun where
  slot : Nat
  buf  : Bool
  at_  : Nat
  /-- the run read an uncorrectable store error (R256) -/
  ue   : Bool := false
  /-- the run has been counted as a miss (R265) -/
  missed : Bool := false
  deriving DecidableEq, Repr

/-- A pending deadline of an engine's monitor (R265). -/
structure PDeadline where
  slot : Nat
  buf  : Bool
  at_  : Nat
  deriving DecidableEq, Repr

/-- A Piste engine (R236-R265). DESIGN CHOICE, log entry 8. -/
structure Engine where
  slots   : SMap PSlot := []
  queue   : List PRun := []
  running : Option PRun := none
  last    : BitVec 4 := 0
  ce      : W8 := 0
  ue      : W8 := 0
  /-- committed runs whose result the egress port has not fetched -/
  done    : List PRun := []
  deadlines : List PDeadline := []
  deriving DecidableEq, Repr

end Sys2Proof.Machine
end

