-- ==== Sys2Proof/Machine/StPower.lean ====
section
/-! DEFINITION. Plain data of the Headland: power domains, device state, clocks, supplies,
temperature, watchdog, resets, straps, self-test and GPIO balls. -/

namespace Sys2Proof.Machine

/-- Dictionary statuses (R483), in the order the checks run. -/
inductive Status where
  | ok | badOp | seq | noObject | off | denied | claimed | stale | type | range | busy
  | conflict | dependency | access
  deriving DecidableEq, Repr

/-- The status byte (R483). -/
def Status.code : Status → Nat
  | .ok => 0x00 | .badOp => 0x0D | .seq => 0x0A | .noObject => 0x01 | .off => 0x0C
  | .denied => 0x02 | .claimed => 0x08 | .stale => 0x09 | .type => 0x03 | .range => 0x04
  | .busy => 0x05 | .conflict => 0x06 | .dependency => 0x07 | .access => 0x0B

/-- States of a power domain, in the order of the codes of 0x2011 (R516). -/
inductive DomSt where
  | off | waking | on | sleeping | retention | lost
  deriving DecidableEq, Repr

def DomSt.code : DomSt → Nat
  | .off => 0 | .waking => 1 | .on => 2 | .sleeping => 3 | .retention => 4 | .lost => 5

/-- A power domain: its state, its target (0x2010), its last loss (0x2012, 0x2013), and where it
stands in the sequences of R518 and R519. -/
structure Domain where
  st      : DomSt := .off
  target  : BitVec 2 := 0
  cause   : W16 := 0
  lost    : W32 := 0
  /-- an accepted request waits for the needed domains and an inrush turn -/
  waiting : Bool := false
  /-- the rail ramps (step 1 of R518): an inrush turn is held; and the Headland time of its start -/
  ramping : Bool := false
  rampAt  : Nat := 0
  /-- the rail is in range: the monitors of R523 act -/
  railOk  : Bool := false
  /-- the PLL the wake needs has locked (step 3) -/
  locked  : Bool := false
  /-- the wake leaves retention (R305) -/
  fromRet : Bool := false
  /-- the power-down ends in retention -/
  toRet   : Bool := false
  deriving DecidableEq, Repr

/-- Device states, in the order of the codes of 0x2000 (R513). -/
inductive DevSt where
  | cold | held | fallow | ready | run | safe
  deriving DecidableEq, Repr

def DevSt.code : DevSt → Nat
  | .cold => 0 | .held => 1 | .fallow => 2 | .ready => 3 | .run => 4 | .safe => 5

/-- What start-up waits for in COLD (R535, R541, R581, R582, R527). -/
inductive Stage where
  | straps | rails | temp | logic | memory | done
  deriving DecidableEq, Repr

/-- The Headland (R509-R545, R575-R578). DESIGN CHOICE, log entry 8. -/
structure Hl where
  dev       : DevSt := .cold
  /-- the power-on detector is asserted; RESET_N is asserted -/
  por       : Bool := false
  resetLow  : Bool := false
  /-- Headland time in hc (0x2020) -/
  time      : W64 := 0
  /-- how far the present hc has come, in twelfths of an fc at the rated frequency (log entry 2) -/
  hcPhase   : Nat := 0
  -- clocks (0x2021)
  xtal      : Bool := false
  refclk    : Bool := true
  pcieRef   : Bool := true
  -- straps captured (0x2003) and MB_ID
  boot      : BitVec 2 := 0
  clksel    : BitVec 2 := 0
  lbistEn   : Bool := false
  dbgOff    : Bool := false
  mbId      : BitVec 5 := 0
  /-- the next strap capture follows a POR release and takes MB_ID too (R536) -/
  porSample : Bool := true
  -- device request (0x2001)
  devReq    : W8 := 0
  /-- a device request is in progress (R520) -/
  devOpen   : Bool := false
  /-- the 10 ms of an accepted FALLOW request run; its power-down runs -/
  fallowDue : Bool := false
  falling   : Bool := false
  /-- a device request, or a domain request, is taking the device out of FALLOW (R514) -/
  leaving   : Bool := false
  dwake     : Bool := false
  /-- EP0 is still to be configured for BOOT = 0b01 (R538) -/
  bootDue   : Bool := false
  -- SAFE record (0x2050)
  safeCause : W8 := 0
  safeDetail : W16 := 0
  safeTime  : W64 := 0
  -- supplies (0x9040)
  hlRail    : Bool := true
  coreRail  : Bool := true
  dips      : W32 := 0
  -- temperature (0x9030, 0x9032)
  temps     : SMap W16 := []
  throttle  : BitVec 2 := 0
  /-- a sensor read 110.0 degrees or more at the last sample (R527) -/
  hot       : Option Nat := none
  -- watchdog (0x2040, 0x2042)
  wdCfg     : W32 := 0
  /-- the watchdog counts, and the hc it has left -/
  wdRun     : Bool := false
  wdLeft    : Nat := 0
  wdWarned  : Bool := false
  -- RST_REQ_N: 0 not driven, 1 driven for the watchdog, 2 driven for 0x2030
  rstReq    : BitVec 2 := 0
  /-- the request that drove RST_REQ_N last, until RESET_N answers it -/
  rstOpen   : BitVec 2 := 0
  resetCause : W8 := 1
  warmResets : W32 := 0
  wdExpiries : W32 := 0
  unanswered : W32 := 0
  -- self-test (0x9000-0x9003)
  stage     : Stage := .straps
  stState   : W8 := 0
  stStage   : W8 := 0
  /-- logic groups that passed, and groups that have run -/
  groups    : W8 := 0
  groupsRun : Nat := 0
  stStart   : Nat := 0
  stDur     : W16 := 0
  lbistNext : Bool := false
  /-- this start-up runs the logic self-test and the lane loopback -/
  lbistRun  : Bool := false
  loopDone  : Bool := false
  lanesFailed : W32 := 0
  /-- soft repairs: Granary slices and Loam stacks (0x6020, 0x6021) -/
  fixGran   : SMap W8 := []
  fixLoam   : SMap W8 := []
  -- GPIO: configuration objects, balls held (0xA002)
  gpio      : SMap W16 := []
  gpHeld    : W32 := 0
  /-- MONO ns at which the pulse of the Almanac's compare units at each ball ends (R386, R577) -/
  gpPulse   : SMap Nat := []
  deriving DecidableEq, Repr

/-- The Headland clock is disciplined (R510, R511). DEDUCED, log entry 139. -/
def Hl.disciplined (h : Hl) : Bool := match h.clksel.toNat with
  | 0 => false
  | 2 => h.refclk
  | _ => h.xtal

/-- The Mbaros clock runs (R37, R510, R511). DEDUCED, log entry 139. -/
def Hl.mbClock (h : Hl) : Bool := if h.clksel = 1 then h.xtal || h.refclk else h.refclk

/-- A domain's rail is in range and monitored (R518, R523): from 16 µs after its rail switch starts.
DEDUCED, log entry 128. -/
def Domain.monitored (x : Domain) (now : Nat) : Bool := x.railOk || (x.ramping && decide (x.rampAt + 64 ≤ now))

end Sys2Proof.Machine
end

