-- ==== Sys2Proof/Machine/StSeed.lean ====
section
/-! DEFINITION. Plain data of seeds in flight, their strips and stooks, of a tiller's
pipeline, hoppers and control block, and of the Event Controller. -/

namespace Sys2Proof.Machine

/-- A physical range of the range tracker (R72): its window, its start and its length in bytes. -/
structure Rng where
  win   : Nat
  start : Nat
  len   : Nat
  deriving DecidableEq, Repr

/-- A fault of a strip (R84, R226, R356): its index, the first and last index it reports (R131), FCODE,
faulting VA, syndrome, trap cause, the tiller that ran the strip. -/
structure SFault where
  idx    : Nat
  lo     : Nat
  hi     : Nat
  code   : Nat
  va     : Nat := 0
  synd   : Nat := 0
  tcause : Nat := 0
  tiller : Nat := 0
  deriving DecidableEq, Repr

/-- A strip handed out and not yet ended (R211, R221). `link` is the seed of the chain whose fault
or flags an entry names. -/
structure Strip where
  k       : Nat
  pass2   : Bool := false
  tiller  : Nat
  lo      : Nat
  hi      : Nat
  started : Bool := false
  /-- writes not yet acknowledged: link, physical address, bytes -/
  writes  : List (Nat × Nat × List W8) := []
  /-- destination bytes for the CVU of a CVEN seed, in index order (R86) -/
  feed    : List W8 := []
  part    : Option PVal := none
  found   : Option Nat := none
  fault   : Option (Nat × SFault) := none
  /-- the partial, or the fault report, has reached the owner's stook -/
  reported : Bool := false
  abandoned : Bool := false
  /-- originators whose invalidations removed an entry that its writes were translated through (R329) -/
  stale   : List Nat := []
  deriving DecidableEq, Repr

/-- How a seed of a chain ends: the STATE, FCODE and PROGRESS of its write-back (R83). -/
structure SEnd where
  state : Nat
  fcode : Nat
  prog  : Nat
  deriving DecidableEq, Repr

/-- One seed as accepted: the snapshot of its descriptor and of the sowing thread's state (R66, R96,
R311), its tracker entries, and what it has come to. -/
structure Desc where
  sid    : Nat
  slot   : Nat
  dva    : Nat
  dpa    : Nat
  ctrl   : Nat
  len    : Nat
  prog   : Nat
  aAddr  : Nat
  bAddr  : Nat
  dAddr  : Nat
  scalar : Nat
  scl0   : Nat
  xp     : Nat
  amode  : Nat
  ctx    : XCtx
  /-- number of towed DOT4 seeds of the chain up to this one (R82) -/
  kdot   : Nat := 0
  rset   : List Rng := []
  wset   : List Rng := []
  flags  : Cond := 0
  fin    : Option SEnd := none
  /-- the fault of this seed, for its record -/
  fault  : Option SFault := none
  /-- write-back issued and not acknowledged -/
  wb     : Bool := false
  /-- left flight (R68) -/
  gone   : Bool := false
  /-- the posted write of STATE = QUEUED has not been performed (R69) -/
  posted : Bool := false
  deriving DecidableEq, Repr

/-- A seed sown alone, or a tow chain from its head on (R78): the owner, the links in order, and the
owner's bookkeeping of strips and stook (R211, R222-R225). -/
structure Seed where
  tiller  : Nat
  thread  : Nat
  links   : List Desc
  S       : Nat
  isOpen  : Bool := false
  /-- strips below this number have been handed out, in the first and in the second pass -/
  next    : Nat := 0
  next2   : Nat := 0
  /-- strips returned under R232, to be handed out first -/
  back    : List (Nat × Bool) := []
  strips  : List Strip := []
  /-- strips whose only or first pass, and whose second pass, has ended -/
  done1   : List Nat := []
  done2   : List Nat := []
  /-- stook: partials by strip, folded nodes by level and position (R223, R225) -/
  parts   : SMap PVal := []
  nodes   : SMap PVal := []
  /-- conditions of FIND strips by strip: those up to the match count (R94, R128) -/
  conds   : SMap W8 := []
  matched : Option (Nat × Nat) := none
  fault   : Option (Nat × SFault) := none
  started : Bool := false
  /-- a PAUSE (1) or CANCEL (2) has stopped the handing out of strips (R88) -/
  stop    : Nat := 0
  deriving DecidableEq, Repr

/-- A PAUSE or CANCEL of SEEDCTL that runs (R88, R203). -/
structure SeedCmd where
  thread : Nat
  cancel : Bool
  sid    : Nat
  /-- the seed IDs affected -/
  ids    : List Nat := []
  started : Bool := false
  deriving DecidableEq, Repr

/-- The per-tiller resources (R134, R162-R167). DESIGN CHOICE, log entry 8. -/
structure Tiller where
  hop     : SMap W8 := []
  utlb    : List TlbEntry := []
  pmPar   : W8 := 0
  lsCe    : W8 := 0
  lsUe    : W8 := 0
  pmstop  : BitVec 4 := 0
  /-- thread whose strip the pipeline served last (R159) -/
  served  : Nat := 3
  /-- the glean request of R213 -/
  glreq   : Bool := false
  /-- owner this requester was granted from last (R214) -/
  glfrom  : Nat := 95
  cmds    : List SeedCmd := []
  /-- fc of the slot epoch (R135) -/
  epoch   : Nat := 0
  /-- what a debug write of CYC_LO has added to the count (R206, R558) -/
  cycAdd  : Nat := 0
  -- run control and branch trace (R554, R566)
  smask   : Bool := true
  hos     : BitVec 4 := 0
  bp0     : W32 := 0
  bp1     : W32 := 0
  ttctl   : W32 := 0x20
  ttptr   : W16 := 0
  trace   : SMap W32 := []
  deriving DecidableEq, Repr

/-- Registers of one event source (R360) with its coalescing timer and delivery record (R363, R368). -/
structure EvSrc where
  cfg     : W64 := 0x8000000000000000
  tgt0    : W64 := 0
  tgt1    : W64 := 0
  pend    : Bool := false
  dlv     : Bool := false
  count   : W8 := 0
  claimer : W8 := 0xFF
  cthread : BitVec 2 := 0
  /-- fc at which COUNT left 0 -/
  timer0  : Nat := 0
  /-- fc that MODERATION_TIMEOUT has put on the timer besides those counted (R363) -/
  ahead   : Nat := 0
  /-- fc of the commit of the delivery that stands -/
  commit  : Nat := 0
  /-- MASK was set within 8 fc of the commit: one claim may still be granted (R368) -/
  window  : Bool := false
  /-- tillers the delivery has been presented to (R364) -/
  shown   : List Nat := []
  /-- those of them to which it is presented again, their GATE having returned to 0 -/
  again   : List Nat := []
  /-- the first presentation of the delivery, 12 fc after its commit, has not come -/
  toShow  : Bool := false
  /-- a withdrawal decided and not yet at the tillers -/
  wd      : Bool := false
  deriving DecidableEq, Repr

/-- The ATOM registers of one thread (R284), held in its quadrant's ATOM unit. -/
structure AtomRegs where
  req  : W64 := 0
  opnd : W64 := 0
  cmp  : W64 := 0
  old  : W64 := 0
  deriving DecidableEq, Repr

/-- The Event Controller beside its sources (R359-R368). -/
structure Evc where
  src   : SMap EvSrc := []
  gate  : SMap Bool := []
  /-- thread-idle as the EVC knows it (R363) -/
  idle  : SMap Bool := []
  /-- sources that stand presented and not taken, by 2 x tiller + class (R364) -/
  stand : SMap (List Nat) := []
  /-- the fc of the last commits, how many there were in it, and the last source (R363) -/
  comFc   : Nat := 0
  comN    : Nat := 0
  comLast : Nat := 0
  /-- the fc of the last claim, and its place in the order of R367 -/
  claimFc   : Nat := 0
  claimRank : Nat := 0
  deriving DecidableEq, Repr

end Sys2Proof.Machine
end

