-- ==== Sys2Proof/Machine/StDev.lean ====
section
/-! DEFINITION. The device: every unit's state as one record. -/

namespace Sys2Proof.Machine

/-- The state of the device, everything but the queue of waiting commands. DESIGN CHOICE, log entries 3, 5 and 8. -/
structure Dev where
  /-- fc since the Field clock started (log entry 2) -/
  fc      : Nat := 0
  /-- free values used so far (log entry 3) -/
  freeCtr : Nat := 0
  mem     : Mem := {}
  threads : SMap Thread := []
  tillers : SMap Tiller := []
  seeds   : List Seed := []
  evc     : Evc := {}
  atoms   : SMap AtomRegs := []
  stlb    : SMap (List TlbEntry) := []
  /-- threads (4 t + k) by when their last walk was asked for (R324) -/
  walkQ   : List Nat := []
  /-- held low halves of XI_REQ, of block q and originator i at 512 q + i (R595) -/
  xiLow   : SMap W32 := []
  /-- FAB_PRI registers by block offset / 8 (R280) -/
  fabPri  : SMap W32 := []
  /-- scrub position of each scrubber: Granary quadrant q at q, Loam stack k at 4 + k (R300) -/
  scrub   : SMap Nat := []
  alm     : Alm := {}
  doms    : SMap Domain := []
  hl      : Hl := {}
  engines : SMap Engine := []
  drills  : SMap Drill := []
  ports   : SMap Port := []
  furrows : SMap Furrow := []
  pengs   : SMap PortEng := []
  partners : Partners := {}
  bonds   : SMap Bond := []
  cvus    : SMap Cvu := []
  dbg     : Dbg := {}
  /-- requester each glean arbiter granted last (R214) -/
  glast   : SMap Nat := []
  dict    : Dict := {}
  pcie    : Pcie := {}
  /-- numeric dictionary objects that hold a value of their own, by index * 256 + subindex -/
  objs    : SMap Nat := []
  /-- dictionary objects that hold octets -/
  octs    : SMap (List W8) := []
  /-- what has left the device, newest first (log entry 5) -/
  out     : List Out := []
  deriving DecidableEq, Repr

end Sys2Proof.Machine
end

