-- ==== Sys2Proof/Machine/Ops.lean ====
section
/-! DEFINITION. The named operations every meaning is built from: units by number, dictionary
objects, domains, occurrences of event sources, memory accesses with their outcomes and records,
registers of a thread, taking an exception or event and returning from one. -/

namespace Sys2Proof.Machine

/-- Errors an access ends with (R33, R298) and the codes of R340 and R357. -/
inductive AccErr where
  | paHole | domainOff | pisteGuard | devAccess
  /-- an uncorrectable granule, with its kind (0x6004:03) and whether it lies in a local store -/
  | uncorr (kind : Nat) (ls : Bool)
  | timeout | errCompl
  deriving DecidableEq, Repr

/-- The code of R340 (INFO), R46 (FCODE), R357 (CODE) and R551. -/
def AccErr.code : AccErr → Nat
  | .paHole => 0x21 | .domainOff => 0x22 | .pisteGuard => 0x23 | .devAccess => 0x24
  | .uncorr _ _ => 0x25 | .timeout => 0x30 | .errCompl => 0x31

/-- Who makes an access (R24, R32, R162, R362). -/
inductive Orig where
  | thread (t k : Nat) (priv : Bool)
  | stream (t : Nat)
  | host
  /-- the Headland bridge for an access object; `sb`: of the side-band master (R503) -/
  | bridge (sb : Bool)
  | debug
  | drill (d c : Nat)
  | engine (e : Nat)
  /-- a port engine; `piste` where it delivers or sends for a Piste furrow (R24) -/
  | port (q : Nat) (piste : Bool)
  | walker (q : Nat)
  | scrub
  deriving DecidableEq, Repr

namespace Dev

/-! Units. -/

def thread (d : Dev) (t k : Nat) : Thread := d.threads.get {} (4 * t + k)
def setThread (d : Dev) (t k : Nat) (x : Thread) : Dev := { d with threads := d.threads.put (4 * t + k) x }
def modThread (d : Dev) (t k : Nat) (f : Thread → Thread) : Dev := d.setThread t k (f (d.thread t k))
def tiller (d : Dev) (t : Nat) : Tiller := d.tillers.get {} t
def setTiller (d : Dev) (t : Nat) (x : Tiller) : Dev := { d with tillers := d.tillers.put t x }
def modTiller (d : Dev) (t : Nat) (f : Tiller → Tiller) : Dev := d.setTiller t (f (d.tiller t))
def dom (d : Dev) (k : Nat) : Domain := d.doms.get {} k
def setDom (d : Dev) (k : Nat) (x : Domain) : Dev := { d with doms := d.doms.put k x }
def modDom (d : Dev) (k : Nat) (f : Domain → Domain) : Dev := d.setDom k (f (d.dom k))
/-- DESIGN CHOICE, log entry 5. -/
def emit (d : Dev) (o : Out) : Dev := { d with out := o :: d.out }

/-- A domain is ON (R34). PD00 always is. -/
def domOn (d : Dev) (k : Nat) : Bool := k == 0 || (d.dom k).st == .on

/-- The pair domain of tiller `t` and the Granary domain of quadrant `q` (R38). -/
def pairDom (t : Nat) : Nat := t / 2 + 1
def granDom (q : Nat) : Nat := 49 + q
def loamDom (k : Nat) : Nat := 53 + k
def quadDom (c : Nat) : Nat := 61 + c
def pisteDom (e : Nat) : Nat := 71 + e
def tillerOn (d : Dev) (t : Nat) : Bool := d.domOn (pairDom t)

/-- A free value: the next of `Config.freeValue`, as a number of 64 bits (log entry 3). -/
def free (d : Dev) : Dev × Nat := ({ d with freeCtr := d.freeCtr + 1 }, (Config.freeValue d.freeCtr).toNat)

/-! Dictionary objects that hold a value. -/

/-- Cold default of a numeric object (the tables of each chapter; 0 where not named). -/
def objCold (i s : Nat) : Nat :=
  match i, s with
  | 0x1011, 0 => 10000
  | 0x1032, 0 => 0xFF
  | 0x1050, 5 => 8
  | 0x1112, 1 => 100
  | 0x2060, 0 => 3
  | 0x9031, 0 => if Config.industrial then 105 else 95
  | 0x9033, 0 => 1
  | _, 0 => 0
  | 0x3012, _ => 100
  | 0x3110, _ | 0x3111, _ => 1048576
  | 0x3112, _ => 786432
  | 0x3113, _ => 524288
  | 0x3114, _ => 0x0C04
  | 0x3120, _ | 0x5108, _ => 0xFF
  | 0x3402, _ => 1000
  | 0x4200, _ => 3
  | 0x6010, _ | 0x6011, _ => 24
  | _, _ => if 0x1070 ≤ i ∧ i ≤ 0x107F ∧ s = 2 then 0xFF else 0

def obj (d : Dev) (i s : Nat) : Nat := (SMap.find d.objs (i * 256 + s)).getD (objCold i s)
def setObj (d : Dev) (i s v : Nat) : Dev := { d with objs := d.objs.put (i * 256 + s) v }
def oct (d : Dev) (i s : Nat) : List W8 := d.octs.get [] (i * 256 + s)
def setOct (d : Dev) (i s : Nat) (v : List W8) : Dev := { d with octs := d.octs.put (i * 256 + s) v }
/-- Raises a counter by `n`; it saturates at `m`. -/
def bumpBy (d : Dev) (i s n m : Nat) : Dev := d.setObj i s (satAdd m (d.obj i s) n)
/-- Raises a U64 counter by one; it saturates (R301). -/
def bump (d : Dev) (i s : Nat) : Dev := d.bumpBy i s 1 max64

/-! Event sources (R358, R363). -/

/-- Numbers assigned to sources (R358). -/
def validSource (n : Nat) : Bool :=
  decide (n ≤ 0x4FF) || (decide (0x500 ≤ n) && decide (n ≤ 0x55F)) ||
  (decide (0x560 ≤ n) && decide (n ≤ 0x57B)) || (decide (0x580 ≤ n) && decide (n ≤ 0x58B)) ||
  (decide (0x590 ≤ n) && decide (n ≤ 0x5DB)) || (decide (0x600 ≤ n) && decide (n ≤ 0x63D)) ||
  (decide (0x7C0 ≤ n) && decide (n ≤ 0x7FE))

def src (d : Dev) (n : Nat) : EvSrc := d.evc.src.get {} n
def setSrc (d : Dev) (n : Nat) (x : EvSrc) : Dev :=
  { d with evc := { d.evc with src := d.evc.src.put n x } }

/-- One occurrence of a source: the count rises, saturating, and it is pending (R363). The Event
Controller lives in PD70 (R369). -/
def occur (d : Dev) (n : Nat) : Dev :=
  if d.domOn 70 && validSource n then
    let x := d.src n
    let x := if x.count = 0 then { x with timer0 := d.fc, ahead := 0 } else x
    d.setSrc n { x with count := if x.count = 0xFF then 0xFF else x.count + 1, pend := true }
  else d

/-- The Almanac time in the 10-byte form of R594, as a number. -/
def alm10 (d : Dev) : Nat :=
  let ns := d.alm.time / 2 ^ 32
  (ns / 10 ^ 9) % 2 ^ 48 + (ns % 10 ^ 9) * 2 ^ 48

/-- MONO in ns (R384). -/
def mono (d : Dev) : Nat := d.alm.mono / 2 ^ 32 % 2 ^ 64

/-! Memory accesses. -/

/-- Whether every domain behind an address of memory is ON (R25, R27). -/
def backed (d : Dev) (pa : Nat) : Bool :=
  match region pa with
  | .loam _ => (List.range 8).all (fun k => d.domOn (loamDom k))
  | .granGlobal _ => (List.range 4).all (fun q => d.domOn (granDom q))
  | .granQuad q _ => d.domOn (granDom q)
  | .piste e _ => d.domOn (pisteDom e)
  | .device _ => true
  | .host _ => d.domOn 69 && d.domOn 70
  | .peer p _ => d.domOn 70 && d.domOn (quadDom (p / 2))
  | .hole => false

/-- The originator word of 0x6004:02: initiator number of R275 and crossbar of R280. -/
def origWord (o : Orig) (tport : Nat) : Nat :=
  let tl (t p : Nat) := 4 * (t % 24) + p + (t / 24) * 0x1000
  match o with
  | .thread t _ _ => tl t 3
  | .stream t => tl t tport
  | .host => 72 + 0x4000
  | .debug | .bridge _ => 85 + 0x4000
  | .drill n _ => 77 + n + 0x4000
  | .engine e => 73 + e + 0x4000
  | .port q _ => 64 + q + 0x4000
  | .walker q => 96 + q * 0x1000
  | .scrub => 0

/-- Counts a corrected granule where it lies: a Loam stack's in 0x6002, a Granary quadrant's in 0x6000 (R297, R301),
a Piste store's in PE_ERR.CE_CNT (R238). -/
def countSingle (d : Dev) (g : Nat) : Dev :=
  let c := 8 * g
  if c < granBase then d.bump 0x6002 ((loamCoord c).stack + 1)
  else if c < pisteBase then d.bump 0x6000 ((c - granBase) / 0x20_0000 / 24 + 1)
  else if c < lsBase then
    let e := (c - pisteBase) / 0x40_0000
    let x := d.engines.get {} e
    { d with engines := d.engines.put e { x with ce := if x.ce = 0xFF then 0xFF else x.ce + 1 } }
  else d

/-- The granule waits for its write-back (R297). -/
def queueFix (d : Dev) (g : Nat) : Dev :=
  if d.mem.fixes.contains g then d else { d with mem := { d.mem with fixes := d.mem.fixes ++ [g] } }

/-- A stream reads a line once for all its elements in it: of a granule that waits for its write-back no element
counts again. DEDUCED, log entry 169. -/
def rereads (d : Dev) (o : Orig) (g : Nat) : Bool :=
  match o with
  | .stream _ | .engine _ => d.mem.fixes.contains g
  | _ => false

/-- Corrected granules of a read: each is counted, and its write-back queued (R297). DEDUCED, log entries 57 and 169. -/
def noteSingles (d : Dev) (o : Orig) (gs : List Nat) : Dev :=
  gs.foldl (fun d g => (if d.rereads o g then d else d.countSingle g).queueFix g) d

/-- Records an uncorrectable detection: counter, last record, event (R298, R301). -/
def noteUncorr (d : Dev) (pa : Nat) (kind : Nat) (orig : Nat) : Dev :=
  let rec4 (d : Dev) : Dev :=
    let d := d.setObj 0x6004 1 (pa - pa % 64)
    let d := d.setObj 0x6004 2 orig
    let d := d.setObj 0x6004 3 kind
    d.setOct 0x6004 4 (toLE 10 d.alm10)
  match granQuadrant pa, loamStack pa with
  | some q, _ => rec4 ((d.bump 0x6001 (q + 1)).occur (0x580 + q))
  | _, some k => rec4 ((d.bump 0x6003 (k + 1)).occur (0x584 + k))
  | _, _ => d

/-- Cells of `n` bytes from a physical address. -/
def cellsOf (pa n : Nat) : Option (List Nat) := (List.range n).mapM (fun i => cellOf (pa + i))

/-- Reads bytes of Loam, Granary or a Piste store whose access is already admitted: corrected
data, or the kind of the first uncorrectable granule; corrected granules beside it count (R297, R298).
DESIGN CHOICE, log entry 58; DEDUCED, log entry 67. -/
def memRead (d : Dev) (o : Orig) (tport pa n : Nat) : Dev × Except AccErr (List W8) :=
  match cellsOf pa n with
  | none => (d, .error .paHole)
  | some cs =>
    match d.mem.firstBad cs with
    | some c =>
      let kind := (d.mem.syndOf c).kind
      let d := d.noteSingles o (d.mem.singles cs)
      (d.noteUncorr (pa + cs.findIdx (· == c)) kind (origWord o tport), .error (.uncorr kind false))
    | none => (d.noteSingles o (d.mem.singles cs), .ok (cs.map (fun c => (d.mem.byte? c).getD 0)))

/-- Writes bytes of Loam, Granary or a Piste store; answers whether every part was performed (R299). A write of part
of a granule corrects and counts its single error (R297). -/
def memWrite (d : Dev) (pa : Nat) (bs : List W8) : Dev × Except AccErr Unit :=
  match cellsOf pa bs.length with
  | none => (d, .error .paHole)
  | some cs =>
    let (m, bad) := d.mem.write (cs.zip bs)
    let d := (d.mem.mended cs).foldl countSingle d
    ({ d with mem := m }, if bad.isEmpty then .ok () else .error (.uncorr 1 false))

/-! A tiller's own memories. -/

/-- Reads local store bytes through the tiller's own port: single errors are corrected in the data
and in the store and counted; an uncorrectable granule is counted (R149, R150). -/
def lsRead (d : Dev) (t a n : Nat) : Dev × Option (List W8) :=
  let cs := (List.range n).map (fun i => lsCell t (a + i))
  match d.mem.firstBad cs with
  | some _ => (d.modTiller t (fun x => { x with lsUe := if x.lsUe = 0xFF then 0xFF else x.lsUe + 1 }), none)
  | none =>
    let sg := d.mem.singles cs
    let bytes := cs.map (fun c => (d.mem.byte? c).getD 0)
    let m := sg.foldl Mem.scrubGranule d.mem
    let d := { d with mem := m }
    (d.modTiller t (fun x => { x with lsCe := BitVec.ofNat 8 (satAdd 255 x.lsCe.toNat sg.length) }), some bytes)

/-- Writes local store bytes; `none` where a part of an uncorrectable granule would be written
(R150, R151). A write of part of a granule corrects and counts its single error (R149). -/
def lsWrite (d : Dev) (t a : Nat) (bs : List W8) : Dev × Bool :=
  let cs := (List.range bs.length).map (fun i => lsCell t (a + i))
  let (m, bad) := d.mem.write (cs.zip bs)
  let n := (d.mem.mended cs).length
  let d := if n = 0 then d else d.modTiller t (fun x => { x with lsCe := BitVec.ofNat 8 (satAdd 255 x.lsCe.toNat n) })
  if bad.isEmpty then ({ d with mem := m }, true)
  else (d.modTiller t (fun x => { x with lsUe := if x.lsUe = 0xFF then 0xFF else x.lsUe + 1 }), false)

/-- Parity bits of a program word (R31): bit 14 over [6:0], bit 15 over [13:7]. -/
def container (w : BitVec 14) : W16 :=
  let x := w.toNat
  BitVec.ofNat 16 (x + popcount 7 x % 2 * 2 ^ 14 + popcount 7 (x / 128) % 2 * 2 ^ 15)

/-- A container whose stored parity is right (R148). -/
def parityOk (c : W16) : Bool := container (BitVec.ofNat 14 c.toNat) == c

def pmRead (d : Dev) (t w : Nat) : W16 :=
  d.mem.raw (pmCell t (2 * w + 1)) ++ d.mem.raw (pmCell t (2 * w))

/-- Stores a program word with fresh parity (R31, R148). -/
def pmWrite (d : Dev) (t w : Nat) (x : BitVec 14) : Dev :=
  let c := (container x).toNat
  let m := d.mem.poke (pmCell t (2 * w)) (BitVec.ofNat 8 c)
  { d with mem := m.poke (pmCell t (2 * w + 1)) (BitVec.ofNat 8 (c / 256)) }

end Dev

/-! Registers of a thread. -/

namespace Thread

/-- Register `r` as code names it: g0 reads zero, and f0-f7 stand for g24-g31 while a fast
handler runs (R134, R143). -/
def rd (x : Thread) (r : Nat) : W32 :=
  if r = 0 then 0
  else if x.fb && decide (24 ≤ r) then x.f.get 0 (r - 24)
  else x.g.get 0 r

/-- Writes register `r`; a write to g0 is discarded (R174). -/
def wr (x : Thread) (r : Nat) (v : W32) : Thread :=
  if r = 0 then x
  else if x.fb && decide (24 ≤ r) then { x with f := x.f.put (r - 24) v }
  else { x with g := x.g.put r v }

/-- Pair d_k (R143). -/
def rdPair (x : Thread) (k : Nat) : W64 := x.rd (2 * k + 1) ++ x.rd (2 * k)
def wrPair (x : Thread) (k : Nat) (v : W64) : Thread :=
  (x.wr (2 * k) (v.setWidth 32)).wr (2 * k + 1) ((v >>> 32).setWidth 32)

/-- STATUS (R201). -/
def status (x : Thread) : W32 :=
  BitVec.ofNat 32 (b2n x.towo * 2 ^ 15 + b2n x.fb * 2 ^ 14 + b2n x.priv * 2 ^ 13 + b2n x.sua * 2 ^ 12 +
    b2n x.ct * 2 ^ 11 + b2n x.c * 8 + b2n x.z * 4 + b2n x.n * 2 + b2n x.v)

/-- EPRIV.DEPTH, KIND and PSTK (R344). -/
def depth (x : Thread) : Nat := fld x.epriv.toNat 19 16
def kind (x : Thread) : Nat := fld x.epriv.toNat 15 8
def pstk (x : Thread) : Nat := fld x.epriv.toNat 7 0

/-- Pushes or pops a level of EPRIV (R344, R347, R352). -/
def mkEpriv (depth kind pstk : Nat) : W32 := BitVec.ofNat 32 (depth * 2 ^ 16 + kind * 2 ^ 8 + pstk)
def pushPriv (x : Thread) (ev : Bool) : Thread :=
  let j := x.depth
  { x with epriv := mkEpriv (j + 1) (putFld x.kind j j (b2n ev)) (putFld x.pstk j j (b2n x.priv)) }
def popPriv (x : Thread) : Thread :=
  let j := x.depth - 1
  { x with epriv := mkEpriv j (putFld x.kind j j 0) (putFld x.pstk j j 0) }

/-- The next word is the first word of the handler taken for PM_PARITY (R148). -/
def pmDue (x : Thread) : Bool := !x.fb && decide (0 < x.depth) && bitN x.pmFirst.toNat (x.depth - 1)
/-- The marks with the handler of the level in force as taken for PM_PARITY and not begun, or as not. -/
def pmMarked (x : Thread) (on : Bool) : W8 :=
  if x.fb || x.depth = 0 then x.pmFirst
  else BitVec.ofNat 8 (putFld x.pmFirst.toNat (x.depth - 1) (x.depth - 1) (b2n on))

/-- HALTED as software sees it: a fed instruction does not end the halt (R559). -/
def halted (x : Thread) : Bool := x.st == .halted || x.dbg.busy

/-- The thread is parked in an instruction that an event, a stop or a halt abandons (R169, R350). -/
def abandons (x : Thread) : Bool :=
  match x.park with
  | .sowDrain .. | .fence | .hopper _ | .seedctl _ => true
  | _ => false

/-- The flags and mode bits of a saved status (R352). -/
def loadStatus (x : Thread) (s : W32) : Thread :=
  { x with priv := s.getLsbD 13, sua := s.getLsbD 12, ct := s.getLsbD 11, c := s.getLsbD 3,
           z := s.getLsbD 2, n := s.getLsbD 1, v := s.getLsbD 0 }

end Thread

namespace Dev

/-- TC_TPC_k as a stop records it (R167, R169). -/
def tpcWord (pm priv : Bool) (pc : BitVec 14) : W32 :=
  BitVec.ofNat 32 (b2n pm * 2 ^ 17 + b2n priv * 2 ^ 16 + pc.toNat)

/-- Brings a thread to STOPPED, recording in TC_TPC_k the address it would have issued next (R169). -/
def stopAt (d : Dev) (t k : Nat) (pc : BitVec 14) (pm : Bool) : Dev :=
  d.modThread t k (fun x => { x with st := .stopped, park := .none, ext := [], pf := [],
                                     pc := pc, tpc := tpcWord pm x.priv pc,
                                     dbg := { x.dbg with haltReq := 0, stopReq := false, why := 0 } })

/-! Halts, freezes and trace (R552-R566). -/

/-- Debug is closed (R552). -/
def debugClosed (d : Dev) : Bool := d.hl.dbgOff || d.obj 0x9010 0 == 1

/-- A freeze is in force (R562). -/
def inForce (d : Dev) : Bool :=
  !d.debugClosed && (d.dbg.force || d.threads.any (fun p => p.2.halted))

/-- Bit `i` of DF_BLK acts: CVU u at u, Drill d at 32 + d, furrow group g at 40 + g, engine e at 48 + e.
DEDUCED, log entry 149. -/
def frozen (d : Dev) (i : Nat) : Bool := d.inForce && d.dbg.blk.getLsbD i

/-- Bit of tiller `t` in a pair of registers such as DF_PIPE0 and DF_PIPE1. -/
def tillerBit (lo hi : W64) (t : Nat) : Bool := if t < 64 then lo.getLsbD t else hi.getLsbD (t - 64)

/-- The vector pipeline of tiller `t` is frozen (R563). DEDUCED, log entry 149. -/
def pipeFrozen (d : Dev) (t : Nat) : Bool := d.inForce && tillerBit d.dbg.pipe0 d.dbg.pipe1 t

/-- A record of the branch trace (R566). DEDUCED, log entry 148. -/
def traceRec (d : Dev) (t k kind : Nat) (src dst : BitVec 14) : Dev :=
  let x := d.tiller t
  let full := x.ttctl.getLsbD 4 && x.ttptr.getLsbD 10
  let held := x.ttctl.getLsbD 5 && (List.range 4).any (fun j => (d.thread t j).halted)
  if !x.ttctl.getLsbD k || full || held || (d.thread t k).dbg.busy then d
  else
    let i := x.ttptr.toNat % 1024
    let w := kind * 2 ^ 30 + k * 2 ^ 28 + src.toNat * 2 ^ 14 + dst.toNat
    let wrap := x.ttptr.getLsbD 10 || i == 1023
    d.setTiller t { x with trace := x.trace.put i (BitVec.ofNat 32 w),
                           ttptr := BitVec.ofNat 16 ((i + 1) % 1024 + b2n wrap * 1024) }

/-- A thread halts with `pc` as its next instruction: WHY is written, the CAS break is armed unless
the halt ends a step (R561), and a trigger may be sent (R565). -/
def haltAt (d : Dev) (t k : Nat) (pc : BitVec 14) (why : Nat) : Dev :=
  let d := d.modThread t k (fun x => { x with
    st := .halted, park := .none, ext := [], pf := [], pc := pc,
    dbg := { x.dbg with why := BitVec.ofNat 4 why, haltReq := 0, tdPc := pc, brk := x.dbg.brk || why != 2 } })
  if (why == 1 || why == 3 || why == 5) && tillerBit d.dbg.dxOut0 d.dbg.dxOut1 t
  then { d with dbg := { d.dbg with trig := d.dbg.trig + 1 } } else d

/-- A halt that has been caused takes effect where the thread would issue: not inside an EXT group
and not while a tow chain is open (R555). -/
def settle (d : Dev) (t k : Nat) : Dev :=
  let x := d.thread t k
  if x.st == .ready && x.dbg.haltReq != 0 && x.ext.isEmpty && !x.towo
  then d.haltAt t k x.pc x.dbg.haltReq.toNat else d

/-- A cause of a halt (R555). DEDUCED, log entries 147 and 149. -/
def haltCause (d : Dev) (t k why : Nat) : Dev :=
  let x := d.thread t k
  let wait := d.setThread t k { x with dbg := { x.dbg with haltReq := BitVec.ofNat 4 why } }
  if d.debugClosed || x.dbg.busy then d
  else match x.st with
    | .ready => wait.settle t k
    | .waiting => d.haltAt t k x.ipc why
    | .parked => if x.abandons && !x.towo then d.haltAt t k x.ipc why else wait
    | _ => d

/-- The instruction a thread was parked in ends, at `x.pc`: the thread is READY, or STOPPED if a stop
was requested (R169), or HALTED again after a fed instruction (R559). -/
def resume (d : Dev) (t k : Nat) : Dev :=
  let x := d.thread t k
  if x.dbg.busy then
    d.setThread t k { x with st := .halted, park := .none, pc := x.dbg.keepPc, dbg := { x.dbg with busy := false } }
  else if x.st == .stopping then d.stopAt t k x.pc false
  else (d.setThread t k { x with st := .ready, park := .none }).settle t k

/-- A thread stop of R351: the reason in TE_THRERR, TC_TPC_k, and source 0x500 + n. DEDUCED, log entry 45. -/
def threadStop (d : Dev) (t k reason : Nat) (pc : BitVec 14) : Dev :=
  let d := d.stopAt t k pc (reason == 1)
  let d := d.modThread t k (fun x => { x with threrr := BitVec.ofNat 4 reason })
  d.occur (0x500 + t)

/-- What an entry needs: the vector, INFO, the faulting VA where the vector reports one (0x02-0x06),
the saved address, and whether an event is taken. -/
structure Cause where
  vec   : Nat
  info  : Nat
  va    : Option Nat := none
  saved : BitVec 14
  ev    : Bool := false
  deriving DecidableEq, Repr

/-- The address a thread stop records for a cause (R351): that of the instruction that raised the exception,
for SVC the SVC itself, or of the one not issued for an event. DEDUCED, log entry 45. -/
def stopPc (x : Thread) (c : Cause) : BitVec 14 := if 0x20 ≤ c.vec then x.ipc else c.saved

/-- A handler table entry checked under R341 and R342: `none` where it may not be used. -/
def htEntry (d : Dev) (t k vec : Nat) : Dev × Option Nat :=
  let base := fld (d.thread t k).htbase.toNat 15 10 * 0x400 + 16 * vec
  let (d, w) := d.lsRead t base 16
  match w with
  | none => (d, none)
  | some bs =>
    let w0 := ofLE (bs.take 8)
    let w1 := ofLE (bs.drop 8)
    let bad := w1 != 0 || fld w0 63 48 != 0 || fld w0 31 26 != 0 || bitN w0 21 || fld w0 19 14 != 0
    (d, if bad || !bitN w0 23 then none else some w0)

/-- The normal entry sequence (R347, R348): EPC, ESTAT, ECAUSE and for vectors 0x02-0x06 EVA are
written, the handler table entry is read, the frame is pushed, EPRIV takes a level, and the status
and pc become the handler's. DEDUCED, log entry 45. -/
def enterNormal (d : Dev) (t k : Nat) (c : Cause) : Dev :=
  let x := d.thread t k
  let at_ := stopPc x c
  if x.depth = 8 then d.threadStop t k 3 at_
  else
    let oldEpc := x.epc
    let oldEstat := x.estat
    let x := { x with epc := c.saved.setWidth 32, estat := x.status,
                      ecause := BitVec.ofNat 32 (c.vec * 2 ^ 26 + c.info % 2 ^ 16) }
    let x := match c.va with
      | some va => { x with evaLo := BitVec.ofNat 32 va, evaHi := BitVec.ofNat 32 (va / 2 ^ 32 % 2 ^ 16) }
      | none => x
    let d := d.setThread t k x
    match d.htEntry t k c.vec with
    | (d, none) => d.threadStop t k 2 at_
    | (d, some w0) =>
      let np := bitN w0 20
      let sp := if bitN w0 22 || np != x.priv then fld w0 47 32 else x.rd 30 |>.toNat
      let sp := (sp - sp % 8) % 0x1_0000
      let f0 := oldEstat.toNat * 2 ^ 32 + oldEpc.toNat % 2 ^ 14
      let f1 := (x.rd 31).toNat * 2 ^ 32 + (x.rd 30).toNat
      let (d, _) := d.lsWrite t (sp + 0xFFF0) (toLE 8 f0)
      let (d, _) := d.lsWrite t (sp + 0xFFF8) (toLE 8 f1)
      let d := d.traceRec t k 1 c.saved (BitVec.ofNat 14 w0)
      d.modThread t k (fun x =>
        let x := x.wr 30 (BitVec.ofNat 32 ((sp + 0xFFF0) % 0x1_0000))
        let x := x.pushPriv c.ev
        { x with pmFirst := x.pmMarked (c.vec == 8), priv := np, sua := bitN w0 25, ct := bitN w0 24, pc := BitVec.ofNat 14 w0,
                 st := .ready, park := .none, ext := [], pf := [] })

/-- The fast entry sequence (R349): FEPC, FESTAT, FEPRIV and FECAUSE, the handler table entry, the
f bank; no frame. -/
def enterFast (d : Dev) (t k : Nat) (saved : BitVec 14) : Dev :=
  let x := d.thread t k
  let d := d.setThread t k { x with fepc := saved.setWidth 32, festat := x.status,
                                    fepriv := if x.priv then 1 else 0,
                                    fecause := BitVec.ofNat 32 (0x11 * 2 ^ 26) }
  match d.htEntry t k 0x11 with
  | (d, none) => d.threadStop t k 2 saved
  | (d, some w0) =>
    let d := d.traceRec t k 1 saved (BitVec.ofNat 14 w0)
    d.modThread t k (fun x =>
      { x with fb := true, priv := bitN w0 20, sua := bitN w0 25, ct := bitN w0 24,
               pc := BitVec.ofNat 14 w0, st := .ready, park := .none, ext := [], pf := [] })

/-- A precise exception of a thread (R345): a fed instruction only records it (R559); a thread that
is STOPPING stops and the exception is not taken (R169); in a fast handler the thread stops with
FASTFAULT (R351); otherwise the normal entry. A chain the thread holds open is broken by the caller
(R81). -/
def takeExc (d : Dev) (t k : Nat) (c : Cause) : Dev :=
  let x := d.thread t k
  if x.dbg.busy then
    d.setThread t k { x with
      st := .halted, park := .none, pc := x.dbg.keepPc,
      dbg := { x.dbg with busy := false, exc := true, vector := BitVec.ofNat 6 c.vec, info := BitVec.ofNat 16 c.info } }
  else if x.st = .stopping then d.stopAt t k c.saved false
  else if x.fb then d.threadStop t k 4 (stopPc x c)
  else (d.enterNormal t k c).settle t k

/-- RTE (R352, R353), in the fast handler or from the normal class. Second part: vector and INFO of
the exception that its check or its frame read raises. -/
def rte (d : Dev) (t k : Nat) : Dev × Option (Nat × Nat) :=
  let x := d.thread t k
  if x.fb then
    if x.festat.getLsbD 13 && !(x.fepriv.getLsbD 0) then (d.threadStop t k 4 x.ipc, none)
    else
      let d := d.traceRec t k 2 x.ipc (x.fepc.setWidth 14)
      (d.setThread t k { x.loadStatus x.festat with fb := false, pc := x.fepc.setWidth 14, pf := [] }, none)
  else if x.depth = 0 || (x.estat.getLsbD 13 && !bitN x.pstk (x.depth - 1)) then (d, some (0x0A, 0))
  else
    match d.lsRead t ((x.rd 30).toNat % 0x1_0000) 16 with
    | (d, none) => (d, some (0x07, 0))
    | (d, some bs) =>
      let f0 := ofLE (bs.take 8)
      let f1 := ofLE (bs.drop 8)
      let d := d.traceRec t k 2 x.ipc (x.epc.setWidth 14)
      (d.modThread t k (fun x =>
        let x := { (x.loadStatus x.estat).popPriv with pc := x.epc.setWidth 14, pf := [] }
        let x := { x with epc := BitVec.ofNat 32 (f0 % 2 ^ 14), estat := BitVec.ofNat 32 (f0 / 2 ^ 32) }
        (x.wr 31 (BitVec.ofNat 32 (f1 / 2 ^ 32))).wr 30 (BitVec.ofNat 32 f1)), none)

end Dev
end Sys2Proof.Machine
end

