-- ==== Sys2Proof/Machine/Cvu.lean ====
section
/-! DEFINITION. The CRC step shared by the threads and the check-value units, and the check-value
units with their registers and attachments (R191, R466-R472). -/

namespace Sys2Proof.Machine

/-- `feed_byte` of R191 at width `w`: `p` the polynomial, `v` the running value, `x` the byte. -/
def crcByte (refl : Bool) (w p v x : Nat) : Nat :=
  let p := p % 2 ^ w
  let v := v % 2 ^ w
  if refl then
    (List.range 8).foldl (fun v _ => Nat.xor (v / 2) (if bitN v 0 then p else 0)) (Nat.xor v x % 2 ^ w)
  else
    (List.range 8).foldl (fun v _ => Nat.xor (2 * v) (if bitN v (w - 1) then p else 0) % 2 ^ w)
      (Nat.xor v (x * 2 ^ (w - 8)) % 2 ^ w)

/-- Feeds bytes in order. -/
def crcBytes (refl : Bool) (w p v : Nat) (bs : List W8) : Nat :=
  bs.foldl (fun v b => crcByte refl w p v b.toNat) v

namespace Cvu

/-- Width, polynomial as the step uses it, bit order, initial value and final XOR (R466, R467). -/
def width (u : Cvu) : Nat :=
  match u.alg.toNat with
  | 0 | 1 => 32
  | 2 => 16
  | 3 => 64
  | _ => u.wm1.toNat + 1
def poly' (u : Cvu) : Nat :=
  match u.alg.toNat with
  | 0 => 0x82F63B78
  | 1 => 0xEDB88320
  | 2 => 0x1021
  | 3 => 0x42F0E1EBA9EA3693
  | _ => u.poly.toNat
def lsb (u : Cvu) : Bool :=
  match u.alg.toNat with
  | 0 | 1 => true
  | 2 | 3 => false
  | _ => u.refl
def initial (u : Cvu) : Nat :=
  match u.alg.toNat with
  | 0 | 1 => 0xFFFFFFFF
  | 2 => 0xFFFF
  | 3 => 0
  | _ => u.init.toNat
def final (u : Cvu) : Nat :=
  match u.alg.toNat with
  | 0 | 1 => 0xFFFFFFFF
  | 2 | 3 => 0
  | _ => u.xor_.toNat

/-- Feeds bytes to the running value (R467). -/
def feed (u : Cvu) (bs : List W8) : Cvu :=
  { u with val := BitVec.ofNat 64 (crcBytes u.lsb u.width u.poly' u.val.toNat bs) }

/-- CV_VAL and CV_RES as read. -/
def value (u : Cvu) : Nat := u.val.toNat % 2 ^ u.width
def result (u : Cvu) : Nat := Nat.xor u.val.toNat u.final % 2 ^ u.width

/-- CV_CMD.INIT. -/
def start (u : Cvu) : Cvu := { u with val := BitVec.ofNat 64 (u.initial % 2 ^ u.width) }

/-- A write of CV_CFG under R16: reserved ALG values, and ALG 4 with WM1 below 7, leave those fields. -/
def writeCfg (u : Cvu) (v : Nat) : Cvu :=
  let alg := fld v 2 0
  let wm1 := fld v 13 8
  let u := { u with refl := bitN v 7 }
  if 5 ≤ alg then (if u.alg = 4 && decide (wm1 < 7) then u else { u with wm1 := BitVec.ofNat 6 wm1 })
  else if alg = 4 && decide (wm1 < 7) then u
  else { u with alg := BitVec.ofNat 3 alg, wm1 := BitVec.ofNat 6 wm1 }

def cfgWord (u : Cvu) : Nat := u.wm1.toNat * 2 ^ 8 + b2n u.refl * 2 ^ 7 + u.alg.toNat

/-- CV_STAT. -/
def stat (u : Cvu) : Nat :=
  u.waitq.length % 256 * 2 ^ 8 + (match u.att with | some a => a.code * 2 + 1 | none => 0)

/-- A register as read (R468). -/
def read (u : Cvu) (o : Nat) : Nat :=
  match o with
  | 0x000 => u.cfgWord
  | 0x008 => u.value
  | 0x010 => u.result
  | 0x018 => u.poly.toNat
  | 0x020 => u.init.toNat
  | 0x028 => u.xor_.toNat
  | 0x038 => u.stat
  | _ => 0

/-- Register `w` with the `size` bytes at byte `lo` (0 or 4) replaced. -/
def mergeReg (old size lo v : Nat) : Nat :=
  if size = 8 then v % 2 ^ 64 else if lo = 0 then putFld old 31 0 v else putFld old 63 32 v

/-- The bytes that a write of a feed register feeds. -/
def feedBytes (o v : Nat) : List W8 := toLE (match o / 8 with | 8 => 1 | 9 => 2 | 10 => 4 | _ => 8) v

/-- A write of `size` bytes at offset `o` (R468, R470): the unit after it, or DEV_ACCESS. -/
def write (u : Cvu) (o size v : Nat) : Except AccErr Cvu :=
  let r := o - o % 8
  let lo := o % 8
  let guarded := [0x000, 0x008, 0x018, 0x020, 0x028, 0x030, 0x040, 0x048, 0x050, 0x058].contains r
  if guarded && u.att.isSome then .error .devAccess
  else match r with
    | 0x000 => .ok (if lo = 0 then u.writeCfg v else u)
    | 0x008 =>
      let n := mergeReg u.value size lo v % 2 ^ u.width
      .ok { u with val := BitVec.ofNat 64 n }
    | 0x018 => .ok { u with poly := BitVec.ofNat 64 (mergeReg u.poly.toNat size lo v) }
    | 0x020 => .ok { u with init := BitVec.ofNat 64 (mergeReg u.init.toNat size lo v) }
    | 0x028 => .ok { u with xor_ := BitVec.ofNat 64 (mergeReg u.xor_.toNat size lo v) }
    | 0x030 => .ok (if lo = 0 && bitN v 0 then u.start else u)
    | 0x040 => if size = 4 && lo = 0 then .ok (u.feed (toLE 1 v)) else .error .devAccess
    | 0x048 => if size = 4 && lo = 0 then .ok (u.feed (toLE 2 v)) else .error .devAccess
    | 0x050 => if size = 4 && lo = 0 then .ok (u.feed (toLE 4 v)) else .error .devAccess
    | 0x058 => if size = 8 then .ok (u.feed (toLE 8 v)) else .error .devAccess
    | _ => .ok u

end Cvu

namespace Dev

def cvu (d : Dev) (u : Nat) : Cvu := d.cvus.get {} u
def setCvu (d : Dev) (u : Nat) (x : Cvu) : Dev := { d with cvus := d.cvus.put u x }

/-- A holder asks for a CVU (R470): it is served at once where the unit is free and nobody waits. -/
def cvuAsk (d : Dev) (u : Nat) (a : Attach) : Dev :=
  let x := d.cvu u
  if x.att == some a || x.waitq.contains a then d
  else if x.att.isNone && x.waitq.isEmpty then d.setCvu u { x with att := some a }
  else d.setCvu u { x with waitq := x.waitq ++ [a] }

/-- The attachment that a CVU serves. -/
def cvuHas (d : Dev) (u : Nat) (a : Attach) : Bool := (d.cvu u).att == some a

/-- An attachment ends, or its request is withdrawn. -/
def cvuRelease (d : Dev) (u : Nat) (a : Attach) : Dev :=
  let x := d.cvu u
  d.setCvu u { x with att := if x.att == some a then none else x.att, waitq := x.waitq.filter (· != a) }

/-- A free CVU serves the next waiting attachment (R470). -/
def cvuAttach (d : Dev) (u : Nat) : Dev :=
  let x := d.cvu u
  match x.att, x.waitq with
  | none, a :: rest => if d.domOn 75 then d.setCvu u { x with att := some a, waitq := rest } else d
  | _, _ => d

/-- A write of a feed register of CVU `u` has to wait (R468, R563): the unit is frozen, or earlier ones wait. -/
def feedHeld (d : Dev) (u : Nat) : Bool := d.frozen u || !(d.cvu u).held.isEmpty

/-- The feeds that have waited in the bridge, once the freeze has ended. DEDUCED, log entry 116. -/
def feedsGo (d : Dev) : Dev :=
  if d.domOn 75 then
    { d with cvus := d.cvus.map (fun p => if d.frozen p.1 then p else (p.1, { p.2.held.foldl Cvu.feed p.2 with held := [] })) }
  else d

/-- Feeds bytes through an attachment. DEDUCED, log entry 116. -/
def cvuFeed (d : Dev) (u : Nat) (bs : List W8) : Dev := d.setCvu u ((d.cvu u).feed bs)

end Dev
end Sys2Proof.Machine
end

