-- ==== Sys2Proof/Machine/Gcm.lean ====
section
/-! DEFINITION. GCM-AES-256, the cipher of keyed Pelz frames (R487), as FIPS 197 and NIST SP 800-38D define it.
PRESUMED, log entry 13. -/

namespace Sys2Proof.Machine
namespace Gcm

/-- The AES substitution box: the value for byte `b` in the eight bits from 8 * b. -/
def sbox : Nat :=
  0x16bb54b00f2d99416842e6bf0d89a18cdf2855cee9871e9b948ed9691198f8e1 * 2 ^ 1792 +
  0x9e1dc186b95735610ef6034866b53e708a8bbd4b1f74dde8c6b4a61c2e2578ba * 2 ^ 1536 +
  0x08ae7a65eaf4566ca94ed58d6d37c8e779e4959162acd3c25c2406490a3a32e0 * 2 ^ 1280 +
  0xdb0b5ede14b8ee4688902a22dc4f816073195d643d7ea7c41744975fec130ccd * 2 ^ 1024 +
  0xd2f3ff1021dab6bcf5389d928f40a351a89f3c507f02f94585334d43fbaaefd0 * 2 ^ 768 +
  0xcf584c4a39becb6a5bb1fc20ed00d153842fe329b3d63b52a05a6e1b1a2c8309 * 2 ^ 512 +
  0x75b227ebe28012079a059618c323c7041531d871f1e5a534ccf73f362693fdb7 * 2 ^ 256 +
  0xc072a49cafa2d4adf04759fa7dc982ca76abd7fe2b670130c56f6bf27b777c63

def sub (b : Nat) : Nat := sbox / 2 ^ (8 * b) % 256

/-- Multiplication by x in the field of AES. -/
def xtime (b : Nat) : Nat := if b < 128 then 2 * b else Nat.xor (2 * b - 256) 0x1B

/-! The key schedule: 32-bit words, the first byte most significant. -/

def subWord (w : Nat) : Nat :=
  sub (w / 2 ^ 24) * 2 ^ 24 + sub (w / 2 ^ 16 % 256) * 2 ^ 16 + sub (w / 2 ^ 8 % 256) * 2 ^ 8 + sub (w % 256)

def rotWord (w : Nat) : Nat := w % 2 ^ 24 * 256 + w / 2 ^ 24

/-- Sums from the left: each word with all before it and `a`. -/
def xorScan : Nat → List Nat → List Nat
  | _, [] => []
  | a, w :: ws => Nat.xor a w :: xorScan (Nat.xor a w) ws

/-- The next eight words of the schedule. -/
def nextWords (rcon : Nat) (ws : List Nat) : List Nat :=
  let hi := xorScan (Nat.xor (subWord (rotWord (ws.getD 7 0))) (rcon * 2 ^ 24)) (ws.take 4)
  hi ++ xorScan (subWord (hi.getD 3 0)) (ws.drop 4)

def schedule : Nat → Nat → List Nat → List Nat
  | 0, _, ws => ws
  | n + 1, rcon, ws => ws ++ schedule n (xtime rcon) (nextWords rcon ws)

/-- Big-endian words of a byte list. -/
def wordsOf : Nat → List W8 → List Nat
  | 0, _ => []
  | n + 1, bs => ofBE (bs.take 4) :: wordsOf n (bs.drop 4)

/-- The fifteen round keys as 128-bit numbers, the first byte most significant. -/
def roundKeys (key : List W8) : List Nat :=
  let ws := schedule 7 1 (wordsOf 8 (padTo 32 key))
  (List.range 15).map (fun i => (List.range 4).foldl (fun a j => a * 2 ^ 32 + ws.getD (4 * i + j) 0) 0)

/-! One block: sixteen bytes, column by column. -/

def bytesOf (x : Nat) : List Nat := (toBE 16 x).map BitVec.toNat
def numOf (bs : List Nat) : Nat := bs.foldl (fun a b => a * 256 + b) 0

def shiftRows (bs : List Nat) : List Nat :=
  [0, 5, 10, 15, 4, 9, 14, 3, 8, 13, 2, 7, 12, 1, 6, 11].map (fun i => bs.getD i 0)

/-- A column times the matrix of MixColumns. -/
def mixCol (a b c e : Nat) : List Nat :=
  let t := Nat.xor (Nat.xor a b) (Nat.xor c e)
  let f (x y : Nat) : Nat := Nat.xor x (Nat.xor t (xtime (Nat.xor x y)))
  [f a b, f b c, f c e, f e a]

def mixColumns (bs : List Nat) : List Nat :=
  (List.range 4).flatMap (fun i => mixCol (bs.getD (4 * i) 0) (bs.getD (4 * i + 1) 0) (bs.getD (4 * i + 2) 0) (bs.getD (4 * i + 3) 0))

def rounds : List Nat → List Nat → Nat
  | [], bs => numOf bs
  | [k], bs => Nat.xor (numOf (shiftRows (bs.map sub))) k
  | k :: ks, bs => rounds ks (bytesOf (Nat.xor (numOf (mixColumns (shiftRows (bs.map sub)))) k))

/-- AES-256 on a block. -/
def aes (ks : List Nat) (x : Nat) : Nat := rounds (ks.drop 1) (bytesOf (Nat.xor x (ks.headD 0)))

/-! GHASH and GCM. -/

/-- Multiplication in the field of GCM; bit 0 of its polynomials is the most significant. -/
def mulAux (x : Nat) : Nat → Nat → Nat → Nat
  | 0, _, z => z
  | n + 1, v, z =>
    mulAux x n (if v % 2 = 0 then v / 2 else Nat.xor (v / 2) (0xE1 * 2 ^ 120)) (if bitN x n then Nat.xor z v else z)

def mul (x y : Nat) : Nat := mulAux x 128 y 0

/-- GHASH over byte lists cut into blocks. -/
def ghash (h : Nat) : Nat → Nat → List W8 → Nat
  | 0, y, _ => y
  | n + 1, y, bs => ghash h n (mul (Nat.xor y (ofBE (padTo 16 bs))) h) (bs.drop 16)

def blocks (bs : List W8) : Nat := (bs.length + 15) / 16

/-- The key stream from counter `c` for `n` blocks. -/
def stream (ks : List Nat) (iv : Nat) : Nat → Nat → List W8
  | _, 0 => []
  | c, n + 1 => toBE 16 (aes ks (iv * 2 ^ 32 + c)) ++ stream ks iv (c + 1) n

/-- The data under the key stream: enciphers and deciphers. -/
def crypt (ks : List Nat) (iv : Nat) (bs : List W8) : List W8 :=
  List.zipWith (· ^^^ ·) bs (stream ks iv 2 (blocks bs))

/-- The integrity check value of associated data and ciphertext. -/
def icv (ks : List Nat) (iv : Nat) (aad ct : List W8) : List W8 :=
  let h := aes ks 0
  let y := ghash h (blocks ct) (ghash h (blocks aad) 0 aad) ct
  let y := mul (Nat.xor y (8 * aad.length * 2 ^ 64 + 8 * ct.length)) h
  toBE 16 (Nat.xor y (aes ks (iv * 2 ^ 32 + 1)))

/-- Ciphertext followed by its ICV, under a 256-bit key and a 96-bit IV. -/
def seal_ (key iv aad bs : List W8) : List W8 :=
  let ks := roundKeys key
  let ct := crypt ks (ofBE iv) bs
  ct ++ icv ks (ofBE iv) aad ct

/-- The plaintext of a ciphertext, where its ICV is right. -/
def open_ (key iv aad ct tag : List W8) : Option (List W8) :=
  let ks := roundKeys key
  if icv ks (ofBE iv) aad ct = tag then some (crypt ks (ofBE iv) ct) else none

end Gcm
end Sys2Proof.Machine
end

