-- ==== Sys2Proof/Machine/PortTx.lean ====
section
/-! DEFINITION. Frames on their way out: how a frame is cut into headers, the sending side of an Ethernet port, and
Pelz messages framed for a port or for Mbaros (R257, R374-R380, R426, R487-R490). -/

namespace Sys2Proof.Machine
namespace Dev

/-! Ports by number, and the fields of their configuration. -/

def port (d : Dev) (p : Nat) : Port := d.ports.get {} p
def setPort (d : Dev) (p : Nat) (x : Port) : Dev := { d with ports := d.ports.put p x }
def modPort (d : Dev) (p : Nat) (f : Port → Port) : Dev := d.setPort p (f (d.port p))

/-- Fields of 0x3010 (R375). -/
def portCfg (d : Dev) (p : Nat) : Nat := d.obj 0x3010 (p + 1)
def portEn (d : Dev) (p : Nat) : Bool := bitN (d.portCfg p) 31
def portExpress (d : Dev) (p : Nat) : Bool := bitN (d.portCfg p) 25
def maxFrame (d : Dev) (p : Nat) : Nat := let m := fld (d.portCfg p) 13 0; if m = 0 then 1518 else m
/-- MAC rate in Gbit/s of a RATE code. -/
def rateOf (r : Nat) : Nat :=
  match r with
  | 1 => 25 | 2 => 50 | 3 => 100 | 4 => 200 | 5 => 400 | _ => 0
def portUp (d : Dev) (p : Nat) : Bool := (d.port p).st == .up
/-- The quad domain of a port or bond. -/
def portDom (p : Nat) : Nat := 61 + p / 2
/-- An object with an interval of at most one event per ms: the mark after an event at `now`, and
whether it is raised (R380, R400, R436, R441). -/
def onePerMs (now : Nat) (last : Option Nat) : Bool :=
  match last with
  | some t => decide (t + 1000000 ≤ now)
  | none => true

/-! Headers. -/

/-- EtherType of a frame, after any VLAN tags (R374). -/
def etherAt (bs : List W8) : Nat × Nat :=
  let t0 := ofBE (slice bs 12 2)
  if t0 = 0x88A8 then
    (if ofBE (slice bs 16 2) = 0x8100 then (ofBE (slice bs 20 2), 22) else (ofBE (slice bs 16 2), 18))
  else if t0 = 0x8100 then (ofBE (slice bs 16 2), 18)
  else (t0, 14)

/-- The VLAN tag of a frame, the inner one where there are two. -/
def vlanOf (bs : List W8) : Option Nat :=
  let n := (etherAt bs).2
  if n = 14 then none else some (ofBE (slice bs (n - 4) 2) % 4096)

end Dev

/-- What a furrow of KIND `k` compares, and where the frame's data begin (R412, R414). -/
def frameKey (bs : List W8) (k : Nat) : Option (Nat × Nat) :=
  let (e, o) := Dev.etherAt bs
  let b (i : Nat) : Nat := ((bs[i]?).getD 0).toNat
  match k with
  | 0 => some (e, o)
  | 1 =>
    let u := o + b o % 16 * 4
    if e = 0x0800 && b o / 16 == 4 && b (o + 9) == 17 then some (ofBE (slice bs (u + 2) 2), u + 8) else none
  | 2 =>
    let u := o + 40
    if e = 0x86DD && b (o + 6) == 17 then some (ofBE (slice bs (u + 2) 2), u + 8) else none
  | _ => none

/-- Overwrites bytes from offset `o`. -/
def patch (bs : List W8) (o : Nat) (new : List W8) : List W8 := bs.take o ++ new ++ bs.drop (o + new.length)

/-- The sum of 16-bit words in network order. -/
def sum16 : List W8 → Nat
  | [] => 0
  | [a] => a.toNat * 256
  | a :: b :: r => a.toNat * 256 + b.toNat + sum16 r

/-- The Internet checksum of a sum of words. -/
def inetSum (n : Nat) : Nat :=
  let f (n : Nat) : Nat := n / 65536 + n % 65536
  0xFFFF - f (f (f n))

/-- Length and checksum fields of IP and UDP headers at offset `o` (R426): `kind` of FC_MATCH. -/
def ipFields (bs : List W8) (kind o : Nat) : List W8 :=
  let b (i : Nat) : Nat := ((bs[i]?).getD 0).toNat
  match kind with
  | 1 =>
    let h := b o % 16 * 4
    let total := bs.length - o
    let bs := patch (patch bs (o + 2) (toBE 2 total)) (o + 10) [0, 0]
    let bs := patch bs (o + 10) (toBE 2 (inetSum (sum16 (slice bs o h))))
    patch (patch bs (o + h + 4) (toBE 2 (total - h))) (o + h + 6) [0, 0]
  | 2 =>
    let n := bs.length - o - 40
    let bs := patch (patch (patch bs (o + 4) (toBE 2 n)) (o + 44) (toBE 2 n)) (o + 46) [0, 0]
    let s := inetSum (sum16 (slice bs (o + 8) 32) + n + 17 + sum16 (bs.drop (o + 40)))
    patch bs (o + 46) (toBE 2 (if s = 0 then 0xFFFF else s))
  | _ => bs

namespace Dev

/-! The sending side of a port. -/

/-- Raises frame counter `i` of 0x3013. DEDUCED, log entry 73. -/
def countFrame (d : Dev) (p i : Nat) : Dev :=
  d.modPort p (fun x => { x with frames := x.frames.put i (satAdd max64 (x.frames.get 0 i) 1) })

/-- The uncontrolled port takes a frame past MACsec (R379, R380). -/
def uncontrolled (d : Dev) (bs : List W8) : Bool :=
  let e := (etherAt bs).1
  e == 0x888E || e == 0x88CC || (List.range 4).any (fun i => let v := d.obj 0x3032 (i + 1); v != 0 && v == e)

/-- The transmit SA is spent: its last PN has been used (R380). DEDUCED, log entry 74. -/
def txSpent (xpn : Bool) (pn : Nat) : Bool := decide ((if xpn then 2 ^ 64 else 2 ^ 32) ≤ pn)

/-- Port `p` protects a frame it sends (R379, R380): the uncontrolled EtherTypes go in the clear. -/
def txProtects (d : Dev) (p : Nat) (bs : List W8) : Bool :=
  bitN (d.obj 0x3030 (p + 1)) 31 && bitN (d.obj 0x3030 (p + 1)) 25 && !d.uncontrolled bs

/-- A frame that port `p` must protect has no transmit SA to go under (R380). -/
def txBlocked (d : Dev) (p : Nat) (bs : List W8) : Bool :=
  let an := d.obj (0x1070 + p) 2
  d.txProtects p bs && (an == 0xFF || txSpent (bitN (d.obj 0x3030 (p + 1)) 30) ((d.port p).txPn.get 1 an))

/-- Sends a frame on a port in UP, through the transmit SA where frames are protected; a frame for a
port that is not UP is discarded and counted (R376, R380). DESIGN CHOICE, log entry 178; DEDUCED, log entry 74. -/
def sendFrame (d : Dev) (p : Nat) (express : Bool) (bs : List W8) : Dev :=
  if !d.portUp p then d.countFrame p 4
  else if d.txBlocked p bs then d.modPort p (fun x => { x with secTxDrops := x.secTxDrops + 1 })
  else if d.txProtects p bs then
    let an := d.obj (0x1070 + p) 2
    let pn := (d.port p).txPn.get 1 an
    let d := d.modPort p (fun x => { x with txPn := x.txPn.put an (pn + 1) })
    let d := if pn + 1 = (if bitN (d.obj 0x3030 (p + 1)) 30 then 2 ^ 62 else 0xC0000000) then d.occur (0x610 + p) else d
    (d.countFrame p 3).emit (.frame p express bs (some ⟨d.oct (0x1070 + p) 1, an, pn⟩))
  else (d.countFrame p 3).emit (.frame p express bs none)

/-- Frames other than express ones must wait on port `p`: a PAUSE is obeyed, or express frames wait (R257, R377). -/
def othersWait (d : Dev) (p : Nat) : Bool :=
  let x := d.port p
  d.portUp p && (x.paused || !x.express.isEmpty)

/-- Sends a frame that is no express frame: at once, or after what it has to wait for (R257, R377). -/
def portSend (d : Dev) (p : Nat) (bs : List W8) : Dev :=
  if d.othersWait p then d.modPort p (fun x => { x with held := x.held ++ [bs] }) else d.sendFrame p false bs

/-- The frames that have waited leave, once nothing holds them. -/
def flushHeld (d : Dev) (p : Nat) : Dev :=
  if d.othersWait p then d
  else
    let bs := (d.port p).held
    bs.foldl (fun d b => d.sendFrame p false b) (d.modPort p (fun x => { x with held := [] }))

/-- The dictionary core goes on with an operation after its first step (R494). -/
def goesOn (d : Dev) (o : LongOp) : Dev :=
  { d with dict := { d.dict with busy := some { d.dict.busy.getD { ops := [] } with ops := (d.dict.busy.elim [] Busy.ops) ++ [o] } } }

/-! Pelz frames. -/

def session (d : Dev) (s : Nat) : Session := d.dict.sessions.get {} s
def setSession (d : Dev) (s : Nat) (x : Session) : Dev :=
  { d with dict := { d.dict with sessions := d.dict.sessions.put s x } }
def role (d : Dev) (slot : Nat) : Nat := (d.dict.roles.get 0 slot).toNat
/-- Raises counter `i` of 0x1034 for transport `tr` (0 PCIe, 1 Ethernet, 2 Mbaros). DEDUCED, log entry 108. -/
def countPelz (d : Dev) (tr i : Nat) : Dev :=
  let k := tr * 8 + i
  { d with dict := { d.dict with counts := d.dict.counts.put k (satAdd max64 (d.dict.counts.get 0 k) 1) } }

/-- The address of the Mbaros port, 0x1050:04. -/
def mbAddr : List W8 := [0x02, 0x4E] ++ toBE 4 Config.serial.toNat

/-- Exchanges `n` bytes at offset `i` with those at `j`. -/
def swapAt (bs : List W8) (i j n : Nat) : List W8 := patch (patch bs i (slice bs j n)) j (slice bs i n)

/-- The header of an answer to a frame (R490): addresses exchanged, and for UDP framing the IP addresses and the UDP
ports; its tags stay. -/
def answerHdr (r : Route) : List W8 :=
  let h := swapAt r.hdr 0 6 6
  if !r.udp then h
  else
    let (e, o) := etherAt h
    if e = 0x0800 then
      let u := o + ((h[o]?).getD 0).toNat % 16 * 4
      swapAt (swapAt h (o + 12) (o + 16) 4) u (u + 2) 2
    else swapAt (swapAt h (o + 8) (o + 24) 16) (o + 40) (o + 42) 2

/-- The outer header (R487). -/
def outerHdr (mode sender ctr len : Nat) : List W8 := [1, BitVec.ofNat 8 mode] ++ toBE 2 len ++ toBE 4 sender ++ toBE 8 ctr

/-- The additional authenticated data of a keyed frame (R487). -/
def pelzAad (udp : Bool) (frame outer : List W8) : List W8 := (if udp then [] else frame.take 12) ++ outer

/-- The bytes of a Pelz frame behind `hdr` (R487, R489): plain, or under a slot's key with COUNTER `ctr`. -/
def pelzFrameBytes (d : Dev) (hdr : List W8) (udp : Bool) (key : Option (Nat × Nat)) (msg : List W8) : List W8 :=
  let body := match key with
    | none => outerHdr 0x80 0 0 msg.length ++ msg
    | some (s, c) =>
      let o := outerHdr s (Config.serial.toNat % 2 ^ 32) c msg.length
      o ++ Gcm.seal_ (d.dict.keys.get [] s) (o.drop 4) (pelzAad udp hdr o) msg
  let bs := hdr ++ body
  let bs := if udp then ipFields bs (if (etherAt bs).1 = 0x0800 then 1 else 2) (etherAt bs).2 else bs
  padTo (max 60 bs.length) bs

/-- A slot that has used its last COUNTER (R489). -/
def keySpent (d : Dev) (slot : Option Nat) : Bool := slot.any (fun s => decide (max64 ≤ d.dict.txCtr.get 0 s))

/-- The slot and COUNTER of the next keyed frame, which goes up by one (R489). -/
def nextKey (d : Dev) (slot : Option Nat) : Dev × Option (Nat × Nat) :=
  match slot with
  | none => (d, none)
  | some s =>
    let c := d.dict.txCtr.get 1 s
    ({ d with dict := { d.dict with txCtr := d.dict.txCtr.put s (c + 1) } }, some (s, c))

/-- Sends a Pelz message in a frame, on Mbaros (16) or on a port behind its express frames (R257, R487-R491); a slot
that has used its last COUNTER sends nothing. -/
def sendPelz (d : Dev) (port : Nat) (hdr : List W8) (udp : Bool) (slot : Option Nat) (msg : List W8) : Dev :=
  if d.keySpent slot then d.countPelz (if port = 16 then 2 else 1) 7
  else
    let (d, key) := d.nextKey slot
    let bs := d.pelzFrameBytes hdr udp key msg
    if port = 16 then d.emit (.mbaros bs) else d.portSend port bs

/-- Records a Pelz message of a session whose frames no command has brought. DESIGN CHOICE, log entry 15. -/
def recordPelz (d : Dev) (ses : Nat) (slot : Option Nat) (msg : List W8) : Dev :=
  if d.keySpent slot then d.countPelz (if ses = 5 || slot.any (fun s => d.role s == 3) then 2 else 1) 7
  else let (d, key) := d.nextKey slot; d.emit (.pelz ses key msg)

end Dev
end Sys2Proof.Machine
end

