-- ==== Sys2Proof/Machine/Evc.lean ====
section
/-! DEFINITION. The Event Controller (R358-R369): registers, coalescing, delivery, claims, masking;
notices and MSI-X messages (R364, R406, R500); how a thread takes an event (R346, R350). -/

namespace Sys2Proof.Machine
namespace Dev

/-! MSI-X (R406). -/

def pcieOn (d : Dev) : Bool := d.domOn 69 && d.pcie.up

/-- Sends, withholds or pends the message of a vector (R404, R406). While Bus Master Enable is 0 a message ends
as every outbound request does, with nobody to tell. DEDUCED, log entry 175. -/
def msixSend (d : Dev) (v : Nat) : Dev :=
  if !d.domOn 69 then d
  else if !d.pcie.msixEn then d.bump 0x3320 6
  else if d.pcie.funcMask || (d.pcie.vecs.get {} v).mask then
    { d with pcie := { d.pcie with pba := d.pcie.pba.put v true } }
  else if !d.pcie.busMaster then d
  else d.emit (.msix v)

/-! Notices (R500). -/

/-- The 16 bytes of a notice (R473, R500). DEDUCED, log entry 88. -/
def noticeBytes (d : Dev) (kind num sub ver : Nat) : List W8 :=
  [BitVec.ofNat 8 kind, 0] ++ toLE 2 num ++ [BitVec.ofNat 8 sub, 0] ++ toLE 2 ver ++ toLE 8 d.hl.time.toNat

/-- The NOTICE message that carries a notice (R482, R500). DEDUCED, log entry 89. -/
def noticeMsg (seq : Nat) (bytes : List W8) : List W8 :=
  [0x20, 0, 0, 0] ++ toBE 4 seq ++ List.replicate 6 0 ++ toBE 2 16 ++ toBE 4 0 ++ bytes

/-- Where a notice of session `s` goes (R500): to the side-band master at 0x1050:01, or at the source of the last valid
Mbaros request; to the main host where the session's last request came from. DEDUCED, log entry 89. -/
def noticeTo (d : Dev) (s : Nat) (sb : Bool) : Option (Nat × Bool × List W8) :=
  let mac := d.oct 0x1050 1
  if sb && mac.any (· != 0) then some (16, false, padTo 6 mac ++ mbAddr ++ [0x88, 0xB5])
  else (if sb then d.dict.mbRoute else (d.session s).route).map (fun r => (r.port, r.udp, answerHdr r))

/-- Sends a notice on a session's transport, or counts it as not sent (R489, R500): the Mbaros port must run, or the
session must have performed a request and its port be UP. DEDUCED, log entry 89. -/
def sendNotice (d : Dev) (s : Nat) (bytes : List W8) : Dev :=
  let x := d.session s
  let sb := s == 5 || d.role (s - 1) == 3
  let slot := if s = 5 then none else some (s - 1)
  let dst := d.noticeTo s sb
  let can := if sb then d.hl.mbClock && dst.isSome
             else (x.seq.isSome || x.route.isSome) && d.domOn 70 && dst.all (fun r => d.portUp r.1)
  if can && !d.keySpent slot then
    let d := d.setSession s { x with notices := x.notices + 1 }
    let m := noticeMsg x.notices.toNat bytes
    match dst with
    | some r => d.sendPelz r.1 r.2.2 r.2.1 slot m
    | none => d.recordPelz s slot m
  else d.countPelz (if sb then 2 else 1) 7

/-- A slot has a role and holds a key. DEDUCED, log entry 89. -/
def keyedAs (d : Dev) (slot role : Nat) : Bool := d.role slot == role && (d.dict.keys.get [] slot).any (· != 0)

/-- A notice to the side-band master (R488, R500): over plain Mbaros, or where keys are required by the first
keyed slot of role 3; with no such slot it is counted as not sent. DEDUCED, log entry 89. -/
def noticeSb (d : Dev) (bytes : List W8) : Dev :=
  if d.obj 0x1050 2 = 0 then d.sendNotice 5 bytes
  else match (List.range 4).find? (fun s => d.keyedAs s 3) with
    | some s => d.sendNotice (s + 1) bytes
    | none => d.countPelz 2 7

/-- A notice to the session of 0x1032 (R500): counted as not sent where the slot has no key of role 1; no
notice where no slot is named. DEDUCED, log entry 89. -/
def noticeHost (d : Dev) (bytes : List W8) : Dev :=
  let s := d.obj 0x1032 0
  if 4 ≤ s then d
  else if d.keyedAs s 1 then d.sendNotice (s + 1) bytes else d.countPelz 1 7

/-- Records a change in 0x7020, raises source 0x63C, and sends its notices by kind (R500). DEDUCED, log entry 88. -/
def noticeChange (d : Dev) (kind num sub ver : Nat) : Dev :=
  let b := d.noticeBytes kind num sub ver
  let d := { d with dict := { d.dict with lastNotice := b } }
  let d := d.occur 0x63C
  let d := if kind = 3 || kind = 4 then d.noticeSb b else d
  if kind = 2 || kind = 3 || kind = 5 then d.noticeHost b else d


end Dev

namespace EvSrc

def mask (x : EvSrc) : Bool := x.cfg.getLsbD 63
def fast (x : EvSrc) : Bool := x.cfg.getLsbD 62
def msix (x : EvSrc) : Nat := fld x.cfg.toNat 58 48
def modCnt (x : EvSrc) : Nat := fld x.cfg.toNat 39 32
def modTime (x : EvSrc) : Nat := fld x.cfg.toNat 31 16
/-- Whether tiller `t` is a target (R360). -/
def targets (x : EvSrc) (t : Nat) : Bool := if t < 64 then x.tgt0.getLsbD t else x.tgt1.getLsbD (t - 64)
def host (x : EvSrc) : Bool := x.tgt1.getLsbD 32
def sb (x : EvSrc) : Bool := x.tgt1.getLsbD 33
/-- EV_STAT (R360). -/
def stat (x : EvSrc) : Nat :=
  b2n x.pend * 2 ^ 62 + b2n x.dlv * 2 ^ 61 + x.count.toNat * 2 ^ 48 + x.claimer.toNat * 2 ^ 8 + x.cthread.toNat

end EvSrc

namespace Dev

def gate (d : Dev) (t : Nat) : Bool := d.evc.gate.get false t

/-- Every thread of the tiller is WAITING or STOPPED (R142). -/
def tillerIdle (d : Dev) (t : Nat) : Bool :=
  (List.range 4).all (fun k => let s := (d.thread t k).st; s == .waiting || s == .stopped)

/-- The coalescing timer of a source, in fc (R363). DESIGN CHOICE, log entry 179. -/
def timerOf (d : Dev) (x : EvSrc) : Nat := d.fc - x.timer0 + x.ahead

/-- Whether source `n` is due (R363). -/
def due (d : Dev) (n : Nat) : Bool :=
  let x := d.src n
  x.pend && !x.mask && !x.dlv &&
  ((x.modCnt == 0 && x.modTime == 0) ||
   (x.modCnt != 0 && decide (x.modCnt ≤ x.count.toNat)) ||
   (x.modTime != 0 && decide (128 * x.modTime ≤ d.timerOf x)) ||
   (List.range 96).any (fun t => x.targets t && !d.gate t && d.tillerOn t && d.evc.idle.get true t))

/-- It is the turn of source `n`: at most 4 commits in one fc, in ascending number (R363). -/
def commitTurn (d : Dev) (n : Nat) : Bool :=
  let same := d.evc.comFc == d.fc && d.evc.comN != 0
  let lo := if same then d.evc.comLast + 1 else 0
  (!same || decide (d.evc.comN < 4)) && decide (lo ≤ n) && !(d.evc.src.map Prod.fst).any (fun m => decide (lo ≤ m) && decide (m < n) && d.due m)

/-- Commits a delivery of source `n`: DLV, the MSI-X message and the side-band notice (R363, R364,
R500). -/
def commitDelivery (d : Dev) (n : Nat) : Dev :=
  if d.due n && d.commitTurn n then
    let x := d.src n
    let e := d.evc
    let d := { d with evc := { e with comFc := d.fc, comN := if e.comFc = d.fc then e.comN + 1 else 1, comLast := n } }
    let d := d.setSrc n { x with dlv := true, commit := d.fc, window := false, shown := [], again := [], toShow := true }
    let b := d.noticeBytes 1 n 0 0
    let d := if x.host then (d.msixSend x.msix).noticeHost b else d
    if x.sb then d.noticeSb b else d
  else d

def standKey (t : Nat) (fast : Bool) : Nat := 2 * t + b2n fast
def standing (d : Dev) (t : Nat) (fast : Bool) : List Nat := d.evc.stand.get [] (standKey t fast)
def setStanding (d : Dev) (t : Nat) (fast : Bool) (l : List Nat) : Dev :=
  { d with evc := { d.evc with stand := d.evc.stand.put (standKey t fast) l } }

/-- The withdrawal of source `n` reaches every tiller (R364). DEDUCED, log entry 46. -/
def withdrawNow (d : Dev) (n : Nat) : Dev :=
  let e := d.evc.stand.map (fun p => (p.1, p.2.filter (· != n)))
  let d := { d with evc := { d.evc with stand := e } }
  d.setSrc n { d.src n with wd := false, toShow := (d.src n).toShow && (d.src n).dlv }

/-- Presents the delivery of source `n` to every target tiller whose domain is ON, whose GATE is 0
and to which it has not yet been presented, or is to be presented again (R364). One that was granted or withdrawn
before its first presentation is still presented, until its withdrawal arrives. DEDUCED, log entries 46 and 47. -/
def presentDelivery (d : Dev) (n : Nat) : Dev :=
  let x := d.src n
  if !(x.dlv || (x.wd && x.toShow)) then d
  else
    let d := if x.wd && x.dlv then d.withdrawNow n else d
    let ts := (List.range 96).filter (fun t => x.targets t && d.tillerOn t && !d.gate t && (!x.shown.contains t || x.again.contains t))
    let d := ts.foldl (fun d t => d.setStanding t x.fast ((d.standing t x.fast).filter (· != n) ++ [n])) d
    d.setSrc n { d.src n with 
      shown := if x.dlv then x.shown ++ ts.filter (fun t => !x.shown.contains t) else []
      again := x.again.filter (fun t => !ts.contains t), toShow := false }

/-- Ends the delivery of source `n` without a grant: PEND stays (R368). -/
def withdrawDelivery (d : Dev) (n : Nat) : Dev :=
  d.setSrc n { d.src n with dlv := false, window := false, wd := true }

/-- Grants source `n` to a claimant (R366). -/
def grant (d : Dev) (n claimer cthread : Nat) : Dev :=
  d.setSrc n { d.src n with
    pend := false, count := 0, dlv := false, ahead := 0, window := false, wd := true, again := [],
    claimer := BitVec.ofNat 8 claimer, cthread := BitVec.ofNat 2 cthread, shown := [] }

/-- A source that a claim may be granted: committed, unmasked or within the window of R368. DEDUCED, log entry 48. -/
def claimable (x : EvSrc) : Bool := x.dlv && (!x.mask || x.window)

def sourcesUp (d : Dev) : List Nat := (d.evc.src.map Prod.fst)

/-- The place of a claimant in the order of one fc (R367): threads by tiller and number, the host, the side-band
master. -/
def rankOf (sb : Bool) : Nat := 400 + b2n sb

/-- A claim at this place may still be decided in this fc: none that comes after it has been. -/
def claimTurn (d : Dev) (rank : Nat) : Bool := d.evc.claimFc != d.fc || decide (d.evc.claimRank ≤ rank)
def claimed (d : Dev) (rank : Nat) : Dev :=
  { d with evc := { d.evc with claimFc := d.fc, claimRank := if d.claimTurn rank then rank else d.evc.claimRank } }

/-- The claim of a thread (R366): in a fast handler fast sources, in a normal event handler normal
ones, outside both fast before normal; the lowest number first. Answers 0x7FF for none. DEDUCED, log entry 47. -/
def claimThread (d : Dev) (t k : Nat) : Dev × Nat :=
  let th := d.thread t k
  let ok (fast : Bool) (n : Nat) : Bool :=
    let x := d.src n
    claimable x && x.targets t && x.shown.contains t && x.fast == fast
  let find (fast : Bool) : Option Nat := d.sourcesUp.find? (ok fast)
  let r :=
    if th.fb then find true
    else if th.kind != 0 then find false
    else match find true with
      | some n => some n
      | none => find false
  let e := d.claimed (4 * t + k)
  match r with
  | some n => (e.grant n t k, n)
  | none => (e, 0x7FF)

/-- The claim of the host or of the side-band master: either class, lowest number (R366). -/
def claimBy (d : Dev) (sb : Bool) : Dev × Nat :=
  let ok (n : Nat) : Bool := let x := d.src n; claimable x && (if sb then x.sb else x.host)
  let e := d.claimed (rankOf sb)
  match d.sourcesUp.find? ok with
  | some n => (e.grant n (if sb then 0x61 else 0x60) 0, n)
  | none => (e, 0x7FF)

/-- What HOST_CLAIM would grant, without granting it (R362). -/
def claimPeek (d : Dev) : Nat :=
  (d.sourcesUp.find? (fun n => claimable (d.src n) && (d.src n).host)).getD 0x7FF

/-- A write of EV_CFG (R360, R368): setting MASK over a committed delivery opens the window of 8 fc,
or withdraws the delivery at once. DEDUCED, log entry 48. -/
def writeEvCfg (d : Dev) (n v : Nat) : Dev :=
  let x := d.src n
  let w := BitVec.ofNat 64 (Nat.land v 0xC7FF00FFFFFF0000)
  let d := d.setSrc n { x with cfg := w }
  if w.getLsbD 63 && !x.mask && x.dlv then
    if d.fc - x.commit < 8 then d.setSrc n { d.src n with window := true }
    else d.withdrawDelivery n
  else d

/-! Registers of the block (R359-R362). -/

/-- EVSTAT of a thread (R354). -/
def evstat (d : Dev) (t k : Nat) : W32 :=
  let x := d.thread t k
  BitVec.ofNat 32 (x.sdone.toNat * 2 ^ 24 + x.sfault.toNat * 2 ^ 16 + x.asq.length % 16 * 2 ^ 12 +
    b2n x.asp * 2 ^ 11 + b2n (!(d.standing t true).isEmpty) * 2 ^ 10 +
    b2n (!(d.standing t false).isEmpty) * 2 ^ 9 + b2n (x.kind != 0) * 2 ^ 8)

/-- A register of a thread page at offset `o` (R359). `clear` reads AS_OVF with its side effect. -/
def readPage (d : Dev) (t k o : Nat) (clear : Bool) : Dev × Nat :=
  let x := d.thread t k
  if o < 0x100 then
    let r := x.sfr.get {} (o / 0x20)
    (d, match o % 0x20 / 8 with
      | 0 => r.id.toNat | 1 => r.idx.toNat | 2 => r.va.toNat | _ => r.orig.toNat)
  else match o with
    | 0x100 => (d, match x.asq with | r :: _ => r.head0.toNat | [] => 0)
    | 0x108 => (d, match x.asq with | r :: _ => r.head1.toNat | [] => 0)
    | 0x118 => (if clear then d.setThread t k { x with asOvf := 0 } else d, x.asOvf.toNat)
    | _ => (d, 0)

/-- A write to AS_POP removes the oldest record (R357). -/
def asPop (d : Dev) (t k : Nat) : Dev := d.modThread t k (fun x => { x with asq := x.asq.drop 1 })

/-- A register of a thread page that no write changes. -/
def pageFixed (o : Nat) : Bool := (decide (o < 0x100) && o % 0x20 != 0) || o == 0x100 || o == 0x108 || o == 0x118

/-- A write to a thread page: W1C of SFR_ID, AS_POP (R356, R357). DEDUCED, log entry 49. -/
def writePage (d : Dev) (t k o v : Nat) : Dev :=
  if o < 0x100 then
    if o % 0x20 = 0 then
      let s := o / 0x20
      d.modThread t k (fun x =>
        let r := x.sfr.get {} s
        { x with sfr := x.sfr.put s { r with
            id := r.id &&& ~~~ BitVec.ofNat 64 (Nat.land v 0xC000000000000000) } })
    else d
  else if o = 0x110 then d.asPop t k
  else d

/-- TE_THRERR (R361). -/
def thrErr (d : Dev) (t : Nat) : Nat :=
  (List.range 4).foldl (fun a k => a + (d.thread t k).threrr.toNat * 16 ^ k) 0

/-- The source a register offset names, where it names one (R359). -/
def evcSource (o : Nat) : Option Nat :=
  if o < 0x1_0000 && validSource (o / 0x20) then some (o / 0x20) else none

/-! Taking events (R346). -/

/-- Which event a thread would take next, in the order of R346. -/
inductive EvKind where
  | fast | seedFault | asyncStore | normal | seedDone
  deriving DecidableEq, Repr

/-- A thread in whose slot an event may be recognized (R346, R350): it would issue an instruction, or
is parked in one that is abandoned; not between EXT words, not while a chain is open (R81), and not in a
halted thread that runs a fed instruction (R559). -/
def recognizes (x : Thread) : Bool :=
  x.ext.isEmpty && !x.towo && !x.dbg.busy &&
  (x.st == .ready || x.st == .waiting || (x.st == .parked && x.abandons))

/-- The first deliverable event of a thread (R346). -/
def deliverable (d : Dev) (t k : Nat) : Option EvKind :=
  let x := d.thread t k
  let cfg := x.evcfg
  let norm := !x.fb && x.kind == 0 && decide (x.depth < 8)
  if cfg.getLsbD 1 && !x.fb && !(d.standing t true).isEmpty then some .fast
  else if cfg.getLsbD 3 && norm && x.sfault != 0 then some .seedFault
  else if cfg.getLsbD 4 && norm && x.asp then some .asyncStore
  else if cfg.getLsbD 0 && norm && !(d.standing t false).isEmpty then some .normal
  else if cfg.getLsbD 2 && norm && x.sdone != 0 then some .seedDone
  else none

/-- The saved address of an event (R141, R350): the instruction not issued; for WAIT 0xFFFF the one
after it. -/
def eventSaved (x : Thread) : BitVec 14 :=
  match x.st, x.park with
  | .waiting, .wait op => if op = 0xFFFF then x.pc else x.ipc
  | .parked, _ => x.ipc
  | _, _ => x.pc

/-- A thread takes event `ev`, if it is the first deliverable one in a slot that recognizes it. -/
def takeEvent (d : Dev) (t k : Nat) (ev : EvKind) : Dev :=
  let x := d.thread t k
  if recognizes x && d.deliverable t k == some ev then
    let saved := eventSaved x
    let d := match ev with
    | .fast => (d.setStanding t true []).enterFast t k saved
    | .normal => (d.setStanding t false []).enterNormal t k ⟨0x10, 0, none, saved, true⟩
    | .seedFault =>
      (d.setThread t k { x with sfault := 0 }).enterNormal t k ⟨0x13, x.sfault.toNat, none, saved, true⟩
    | .seedDone =>
      (d.setThread t k { x with sdone := 0 }).enterNormal t k ⟨0x12, x.sdone.toNat, none, saved, true⟩
    | .asyncStore =>
      (d.setThread t k { x with asp := false }).enterNormal t k ⟨0x14, x.asq.length % 16, none, saved, true⟩
    d.settle t k
  else d

/-- Queues an ASYNC_STORE record on a thread (R357). -/
def asyncStore (d : Dev) (t k : Nat) (code pa tiller : Nat) (sid : Option Nat) : Dev :=
  d.modThread t k (fun x =>
    if 8 ≤ x.asq.length then
      { x with asOvf := if x.asOvf = 0xFFFFFFFF then x.asOvf else x.asOvf + 1 }
    else
      let h0 := 2 ^ 63 + code * 2 ^ 48 + pa % 2 ^ 46
      let h1 := (match sid with | some s => s * 2 ^ 48 + 2 ^ 47 | none => 0) + tiller * 2 ^ 8
      { x with asq := x.asq ++ [⟨BitVec.ofNat 64 h0, BitVec.ofNat 64 h1⟩], asp := true })

end Dev
end Sys2Proof.Machine
end

