-- ==== Sys2Proof/Machine/HedgeTx.lean ====
section
/-! DEFINITION. The sending side of a Hedgerow bond: packets, credits and the replay buffer
(R389-R393, R396, R398). -/

namespace Sys2Proof.Machine

namespace HPacket

/-- Units of a packet (R390). -/
def units (x : HPacket) : Nat := 1 + (x.data.length + 31) / 32
/-- Responses have bit 7 of TYPE set (R391). -/
def response (x : HPacket) : Bool := decide (0x80 ≤ x.type)

/-- The packet as sent, with the ACK and the credits of the moment (R390). -/
def encode (x : HPacket) (ack crq crs param : Nat) : List W8 :=
  let dcrc := if x.data.isEmpty then 0 else Nat.xor (crcBytes true 32 0x82F63B78 0xFFFFFFFF x.data) 0xFFFFFFFF
  let w := x.type * 2 ^ 248 + x.seq * 2 ^ 236 + ack * 2 ^ 224 + crq * 2 ^ 216 + crs * 2 ^ 208 + x.tag * 2 ^ 196 +
    x.status * 2 ^ 192 + x.bytes * 2 ^ 183 + x.addr * 2 ^ 136 + dcrc * 2 ^ 64 + param * 2 ^ 16
  let head := toBE 30 (w / 2 ^ 16)
  let n := (x.data.length + 31) / 32 * 32
  head ++ toBE 2 (crcBytes false 16 0x1021 0xFFFF head) ++ padTo n x.data

end HPacket

namespace Dev

def bond (d : Dev) (b : Nat) : Bond := d.bonds.get {} b
def setBond (d : Dev) (b : Nat) (x : Bond) : Dev := { d with bonds := d.bonds.put b x }

/-- The units of a packet's bytes in rotation over the bond's lanes, from unit `k` of its stream (R389). -/
def spread (ranks : List Nat) : Nat → Nat → List W8 → List HUnit
  | 0, _, _ => []
  | n + 1, k, bs => ⟨ranks.getD (k % max 1 ranks.length) 0, false, bs.take 32⟩ ::
      (spread ranks n (k + 1) (bs.drop 32)).map (fun u => { u with data := true })

/-- Bytes of a unit list, in order. -/
def unitBytes (us : List HUnit) : List W8 := us.flatMap HUnit.bytes

/-- Sends a control unit or a packet with ACK and credits (R389, R392, R393). -/
def bondEmit (d : Dev) (b : Nat) (p : HPacket) (param : Nat) : Dev :=
  let x := d.bond b
  let q := min x.retq 255
  let s := min x.rets 255
  let us := spread x.ranks p.units x.unit (p.encode x.rxSeq q s param)
  (d.setBond b { x with retq := x.retq - q, rets := x.rets - s, unit := x.unit + p.units }).emit
    (if p.type = 0xF2 then .train b Config.serial.toNat us else .peer b us)

/-- Every lane of a bond sends an ALIGN unit in the same unit position (R389, R391). -/
def alignEmit (d : Dev) (b : Nat) : Dev :=
  let x := d.bond b
  let p : HPacket := { seq := 0, type := 0xF1, addr := 0, tag := 0, status := 0, bytes := 0, data := [] }
  (d.setBond b { x with alignAt := some d.mono }).emit
    (.peer b (x.ranks.map (fun l => ⟨l, false, p.encode x.rxSeq 0 0 0⟩)))

/-- The first packet of the queue that may go: the credits of its channel and the replay buffer cover
it, and no earlier packet of its channel waits (R392, R393). DEDUCED, log entry 81. -/
def bondNext (x : Bond) : List HPacket → Bool → Bool → Option HPacket
  | [], _, _ => none
  | p :: rest, q, s =>
    let room := decide ((x.replay.map HPacket.units).sum + p.units ≤ 2048)
    let ok := room && (if p.response then s && decide (p.units ≤ x.crs) else q && decide (p.units ≤ x.crq))
    if ok then some p
    else bondNext x rest (q && p.response) (s && !p.response)

/-- Removes the first copy of a packet. -/
def dropPacket (p : HPacket) : List HPacket → List HPacket
  | [] => []
  | a :: rest => if a = p then rest else a :: dropPacket p rest

/-- Sends waiting packets while credits cover them. DEDUCED, log entry 80. -/
def bondPump (d : Dev) (b : Nat) : Nat → Dev
  | 0 => d
  | fuel + 1 =>
    let x := d.bond b
    if x.st != .up then d
    else match bondNext x x.txq true true with
      | none => d
      | some p =>
        let seq := (x.txSeq + 1) % 4096
        let p' := { p with seq := seq }
        let x := { x with txq := dropPacket p x.txq, txSeq := seq, replay := x.replay ++ [p'],
                          crq := if p.response then x.crq else x.crq - p.units,
                          crs := if p.response then x.crs - p.units else x.crs }
        bondPump ((d.setBond b x).bondEmit b p' 0) b fuel

/-- Queues a packet on a bond; it goes as soon as credits allow. -/
def bondQueue (d : Dev) (b : Nat) (p : HPacket) : Dev :=
  let x := d.bond b
  (d.setBond b { x with txq := x.txq ++ [p] }).bondPump b (x.txq.length + 1)

/-- A write to peer window `b` at offset `o`, split at 256-byte boundaries (R396). DEDUCED, log entry 82. -/
def peerWrites (d : Dev) (b : Nat) (who : Option WOrig) : Nat → Nat → List W8 → Dev
  | 0, _, _ => d
  | fuel + 1, o, bs =>
    if bs.isEmpty then d
    else
      let n := min bs.length (256 - o % 256)
      let p : HPacket := { seq := 0, type := 0x02, addr := o, tag := 0, status := 0, bytes := n, data := bs.take n, who := who }
      let x := d.bond b
      let d := match who with
        | some w => d.setBond b { x with writers := x.writers.put o w }
        | none => d
      peerWrites (d.bondQueue b p) b who fuel (o + n) (bs.drop n)

def peerWrite (d : Dev) (b o : Nat) (bs : List W8) (who : Option WOrig) : Dev :=
  d.peerWrites b who (bs.length / 256 + 2) o bs

/-- A read of peer window `b`: a READ with a free tag; nothing is sent where no tag is free (R392).
DEDUCED, log entry 83. -/
def peerRead (d : Dev) (b o n : Nat) (who : Waiter) : Dev :=
  let x := d.bond b
  match (List.range 512).find? (fun g => !x.reads.any (fun r => r.tag == g)) with
  | none => d
  | some tag =>
    let d := d.setBond b { x with reads := x.reads ++ [⟨tag, who, n⟩] }
    d.bondQueue b { seq := 0, type := 0x01, addr := o, tag := tag, status := 0, bytes := n, data := [] }

/-- A read of peer window `b` by a seed, a Drill or a port engine, split at 256-byte boundaries (R396).
DEDUCED, log entry 83. -/
def peerReads (d : Dev) (b : Nat) : Nat → Nat → Nat → Dev
  | 0, _, _ => d
  | fuel + 1, o, n =>
    if n = 0 then d
    else
      let k := min n (256 - o % 256)
      peerReads (d.peerRead b o k .taken) b fuel (o + k) (n - k)

/-- An outbound read request on PCIe, at most 512 at a time (R402, R405). -/
def hostReadReq (d : Dev) (a n : Nat) (who : Waiter) : Dev :=
  if 512 ≤ d.pcie.reads.length then d
  else
    let tag := d.pcie.nextTag
    let r : OutRead := { tag := tag, who := who, addr := a, len := n }
    ({ d with pcie := { d.pcie with reads := d.pcie.reads ++ [r], nextTag := tag + 1 } }).emit (.hostRead tag a n)

end Dev
end Sys2Proof.Machine
end

