-- ==== Sys2Proof/Machine/Xlate.lean ====
section
/-! DEFINITION. Address translation (R307-R338): TLBs, the two-stage walk with its checks and its
A and D updates, faults with their syndrome and records, invalidation. -/

namespace Sys2Proof.Machine

/-- A translation request: the access, its context and its virtual address. -/
structure XReq where
  kind : AccKind
  ctx  : XCtx
  va   : Nat
  deriving DecidableEq, Repr

/-- How a translation fails: a fault with its syndrome (R336), or a walker's domain that is not ON. -/
inductive XErr where
  | fault (synd : Nat)
  | off
  deriving DecidableEq, Repr

/-- The TLBs an agent looks up (R307): a tiller's micro-TLB if it has one, and a quadrant's. -/
structure XPath where
  micro : Option Nat
  quad  : Nat
  deriving DecidableEq, Repr

def AccKind.code : AccKind → Nat
  | .read => 0 | .write => 1 | .fetch => 2 | .atom => 3
/-- Writes and ATOM operations need W and set D (R317, R320). -/
def AccKind.writes : AccKind → Bool
  | .write | .atom => true
  | _ => false

/-- The syndrome of R336. -/
def syndrome (r : XReq) (stage2 : Bool) (level : Nat) (s1w : Bool) (type : Nat) : Nat :=
  r.kind.code * 2 ^ 14 + b2n r.ctx.priv * 2 ^ 13 + b2n stage2 * 2 ^ 12 + level * 2 ^ 10 + b2n s1w * 2 ^ 9 + type

/-- The check of the stage-1 leaf: U, then X, then W (R318, R319). -/
def check1 (r : XReq) (u x w : Bool) : Option Nat :=
  if !r.ctx.priv && !u then some 0x05
  else if r.ctx.priv && u && r.kind == .fetch then some 0x07
  else if r.ctx.priv && u && !r.ctx.sua then some 0x06
  else if r.kind == .fetch && !x then some 0x04
  else if r.kind.writes && !w then some 0x03
  else none

/-- The check of the output's stage-2 leaf (R317). -/
def check2 (r : XReq) (x w : Bool) : Option Nat :=
  if r.kind == .fetch && !x then some 0x04
  else if r.kind.writes && !w then some 0x03
  else none

def asidOf (c : XCtx) : Nat := fld c.x1.toNat 27 16

def TlbEntry.hits (e : TlbEntry) (c : XCtx) (va : Nat) : Bool :=
  e.part == c.part && (e.glob || e.asid == asidOf c) && e.va == va - va % e.size

/-- Two entries that both match some VA in some context (R323). -/
def TlbEntry.meets (x e : TlbEntry) : Bool :=
  x.part == e.part && (x.asid == e.asid || x.glob || e.glob) && overlaps x.va x.size e.va e.size

/-- A table entry checked under R314 and R315 at a level of a stage. -/
inductive Pte where
  | table (next : Nat)
  | leaf (oa size : Nat)
  | bad (type : Nat)
  deriving DecidableEq, Repr

def readPte (stage2 : Bool) (level w : Nat) : Pte :=
  if !bitN w 0 then .bad 0x01
  else if fld w 63 46 != 0 then .bad 0x02
  else
    let oa := fld w 45 12 * 4096
    let t := bitN w 1
    if t && decide (level < 3) then
      if fld w 7 2 != 0 then .bad 0x02 else .table oa
    else if !t && (level = 0 || level = 3) then .bad 0x02
    else if stage2 && (bitN w 7 || bitN w 3) then .bad 0x02
    else
      let size := 2 ^ (39 - 9 * level)
      if oa % size != 0 then .bad 0x02 else .leaf oa size

/-- A leaf a walk used: where its entry lies, the entry as read, its level, page base and size. -/
structure Leaf where
  at_   : Nat
  w     : Nat
  level : Nat
  oa    : Nat
  size  : Nat
  deriving DecidableEq, Repr

/-- The outcome of a stage: an address, or a fault type with its level. -/
abbrev Walked (α : Type) := Except (Nat × Nat) α

namespace Dev

/-- One table read (R316): its value, or the fault type. -/
def readTable (d : Dev) (q pa : Nat) : Dev × Except Nat Nat :=
  match region pa with
  | .device _ => (d, .error 0x08)
  | .loam _ | .granGlobal _ | .granQuad _ _ =>
    if !d.backed pa then (d, .error 0x09)
    else match d.memRead (.walker q) 0 pa 8 with
      | (d, .ok bs) => (d, .ok (ofLE bs))
      | (d, .error _) => (d, .error 0x0A)
  | _ => (d, .error 0x09)

/-- Stage-2 root of a partition and its mode (R308). -/
def root2 (d : Dev) (p : Nat) : Nat := d.obj 0x6110 (p + 1)

/-- Walks the levels of stage 2 from `level` (R313). -/
def walk2 (d : Dev) (q ipa : Nat) : Nat → Nat → Nat → Dev × Walked Leaf
  | 0, level, _ => (d, .error (0x02, level))
  | fuel + 1, level, base =>
    let at_ := base + 8 * fld ipa (47 - 9 * level) (39 - 9 * level)
    match d.readTable q at_ with
    | (d, .error ty) => (d, .error (ty, level))
    | (d, .ok w) => match readPte true level w with
      | .bad ty => (d, .error (ty, level))
      | .leaf oa size => (d, .ok ⟨at_, w, level, oa, size⟩)
      | .table next => walk2 d q ipa fuel (level + 1) next

/-- Stage 2 of an intermediate address: the physical address and the leaf used, none in BYPASS. -/
def stage2 (d : Dev) (q p ipa : Nat) : Dev × Walked (Nat × Option Leaf) :=
  let r := d.root2 p
  if r % 4 = 1 then (d, .ok (ipa, none))
  else match d.walk2 q (ipa % 2 ^ 46) 4 0 (fld r 45 12 * 4096) with
    | (d, .error e) => (d, .error e)
    | (d, .ok l) => (d, .ok (l.oa + ipa % l.size, some l))

/-- What a stage-1 walk has used: the leaf, the stage-2 leaves that mapped its tables in walk
order, the last of them being the one that maps the leaf's own page. -/
structure Walk1 where
  leaf   : Leaf
  tables : List Leaf
  /-- intermediate address of the leaf entry -/
  ipa    : Nat
  deriving DecidableEq, Repr

/-- A fault of a walk: the syndrome, and the intermediate address of a stage-2 fault (R335). -/
abbrev WalkErr := Nat × Option Nat

/-- Walks stage 1, each table address through stage 2 (R313). -/
def walk1 (d : Dev) (q : Nat) (r : XReq) : Nat → Nat → Nat → List Leaf → Dev × Except WalkErr Walk1
  | 0, level, _, _ => (d, .error (syndrome r false level false 0x02, none))
  | fuel + 1, level, base, used =>
    let ipa := base + 8 * fld r.va (47 - 9 * level) (39 - 9 * level)
    match d.stage2 q r.ctx.part ipa with
    | (d, .error (ty, l2)) => (d, .error (syndrome r true l2 true ty, some ipa))
    | (d, .ok (pa, lf)) =>
      let used := match lf with
        | some l => used ++ [l]
        | none => used
      match d.readTable q pa with
      | (d, .error ty) => (d, .error (syndrome r false level false ty, none))
      | (d, .ok w) => match readPte false level w with
        | .bad ty => (d, .error (syndrome r false level false ty, none))
        | .leaf oa size => (d, .ok ⟨⟨pa, w, level, oa, size⟩, used, ipa⟩)
        | .table next => walk1 d q r fuel (level + 1) next used

/-- An update of an entry that changes a bit: A, or D where it is asked for (R320). -/
def needsUpdate (p : Leaf × Bool) : Bool := !bitN p.1.w 5 || (p.2 && !bitN p.1.w 6)

/-- One update for each entry, at its first place in walk order. DEDUCED, log entry 51. -/
def mergeUps (ps : List (Leaf × Bool)) : List (Leaf × Bool) :=
  ps.foldl (fun acc p =>
    if acc.any (fun q => q.1.at_ == p.1.at_) then acc.map (fun q => if q.1.at_ = p.1.at_ then (q.1, q.2 || p.2) else q)
    else acc ++ [p]) []

/-- The CAS that sets A and, if asked, D in an entry (R321): false where the entry is not as the walk read it. -/
def casAD (d : Dev) (p : Leaf × Bool) : Dev × Bool :=
  if !needsUpdate p then (d, true)
  else
    match d.memRead (.walker 0) 0 p.1.at_ 8 with
    | (d, .ok bs) =>
      if ofLE bs = p.1.w then
        ((d.memWrite p.1.at_ (toLE 8 (putFld (if p.2 then putFld p.1.w 6 6 1 else p.1.w) 5 5 1))).1, true)
      else (d, false)
    | (d, .error _) => (d, false)

/-- The updates in walk order, up to a CAS that fails. -/
def casAll (d : Dev) : List (Leaf × Bool) → Dev × Bool
  | [] => (d, true)
  | p :: r => match d.casAD p with
    | (d, true) => casAll d r
    | (d, false) => (d, false)

/-- The reads and checks of both stages in walk order (R315-R320): the A and D updates that are due, and the entry that
fills the TLBs. DEDUCED, log entry 51. -/
def walkRead (d : Dev) (q : Nat) (r : XReq) : Dev × Except WalkErr (List (Leaf × Bool) × TlbEntry) :=
  let mode := d.root2 r.ctx.part % 4
  let rootIpa := (fld r.ctx.x1.toNat 1 0 * 2 ^ 32 + r.ctx.x0.toNat) * 4096
  if mode = 0 then (d, .error (syndrome r true 0 true 0x0B, some rootIpa))
  else if !bitN r.ctx.x1.toNat 31 then (d, .error (syndrome r false 0 false 0x0B, none))
  else match d.walk1 q r 4 0 rootIpa [] with
    | (d, .error e) => (d, .error e)
    | (d, .ok w1) =>
      let lf := w1.leaf
      let u := bitN lf.w 3
      let x1 := bitN lf.w 4
      let wr1 := bitN lf.w 2
      match check1 r u x1 wr1 with
      | some ty => (d, .error (syndrome r false lf.level false ty, none))
      | none =>
        let ipa := lf.oa + r.va % lf.size
        match d.stage2 q r.ctx.part ipa with
        | (d, .error (ty, l2)) => (d, .error (syndrome r true l2 false ty, some ipa))
        | (d, .ok (pa, lf2)) =>
          let x2 := match lf2 with | some l => bitN l.w 4 | none => true
          let wr2 := match lf2 with | some l => bitN l.w 2 | none => true
          let lev2 := match lf2 with | some l => l.level | none => 0
          match check2 r x2 wr2 with
          | some ty => (d, .error (syndrome r true lev2 false ty, some ipa))
          | none =>
            let wantD := r.kind.writes
            let changes := !bitN lf.w 5 || (wantD && !bitN lf.w 6)
            let own := w1.tables.getLast?
            let blocked := match own with
              | some l => changes && !bitN l.w 2
              | none => false
            if blocked then
              (d, .error (syndrome r true ((own.map Leaf.level).getD 0) true 0x03,
                some w1.ipa))
            else
              let ups := w1.tables.map (fun l => (l, false)) ++
                (match own with | some l => if changes then [(l, true)] else [] | none => []) ++
                [(lf, wantD)] ++ (match lf2 with | some l => [(l, wantD)] | none => [])
              let size := match lf2 with | some l => min lf.size l.size | none => lf.size
              let d1 := bitN lf.w 6 || wantD
              let d2 := match lf2 with | some l => bitN l.w 6 || wantD | none => true
              (d, .ok (mergeUps ups,
                      { part := r.ctx.part, asid := asidOf r.ctx, glob := bitN lf.w 7,
                        va := r.va - r.va % size, size := size, pa := pa - r.va % size,
                        uPage := u, w1 := wr1, x1 := x1, w2 := wr2, x2 := x2,
                        dirty := d1 && d2, l1 := lf.level, l2 := lev2,
                        ipa := ipa - r.va % size }))

/-- A walk with its updates: a CAS that fails discards it, and it starts again from level 0 (R321). -/
def walkTry : Nat → Dev → Nat → XReq → Dev × Except WalkErr TlbEntry
  | 0, d, _, r => (d, .error (syndrome r false 0 false 0x0A, none))
  | n + 1, d, q, r => match d.walkRead q r with
    | (d, .error e) => (d, .error e)
    | (d, .ok (ups, e)) => match d.casAll ups with
      | (d, true) => (d, .ok e)
      | (d, false) => walkTry n (d.bump 0x6121 (q + 1)) q r

/-- A whole walk, which 0x6120 counts (R338). Nothing else changes an entry within it, so the second attempt is never
made. DEDUCED, log entry 51. -/
def walk (d : Dev) (q : Nat) (r : XReq) : Dev × Except WalkErr TlbEntry := walkTry 2 (d.bump 0x6120 (q + 1)) q r

/-- The records of a stage-2 fault (R335). -/
def noteStage2 (d : Dev) (p : Nat) (synd ipa : Nat) : Dev :=
  let d := d.setObj 0x6111 (p + 1) ipa
  let d := d.setObj 0x6112 (p + 1) synd
  (d.bump 0x6113 (p + 1)).occur (0x560 + p)

/-- Puts an entry into a TLB of `cap` entries, replacing every one that matches a VA it matches; a full TLB loses an
entry that the specification does not name (R323): a free value chooses it. DESIGN CHOICE, log entry 50. -/
def fillTlb (d : Dev) (cap : Nat) (l : List TlbEntry) (e : TlbEntry) : Dev × List TlbEntry :=
  let l := l.filter (fun x => !x.meets e)
  if l.length < cap then (d, e :: l)
  else
    let (d, v) := d.free
    (d, e :: l.eraseIdx (v % cap))

/-- DESIGN CHOICE, log entry 50. -/
def fillMicro (d : Dev) (path : XPath) (e : TlbEntry) : Dev :=
  match path.micro with
  | none => d
  | some t =>
    let (d, l) := d.fillTlb 64 (d.tiller t).utlb e
    d.modTiller t (fun x => { x with utlb := l })

/-- DESIGN CHOICE, log entry 50. -/
def fillShared (d : Dev) (q : Nat) (e : TlbEntry) : Dev :=
  let (d, l) := d.fillTlb 4096 (d.stlb.get [] q) e
  { d with stlb := d.stlb.put q l }

/-- Removes an entry from every TLB of a path (R333). DEDUCED, log entry 52. -/
def dropEntry (d : Dev) (path : XPath) (r : XReq) : Dev :=
  let keep (e : TlbEntry) : Bool := !e.hits r.ctx r.va
  let d := { d with stlb := d.stlb.put path.quad ((d.stlb.get [] path.quad).filter keep) }
  match path.micro with
  | none => d
  | some t => d.modTiller t (fun x => { x with utlb := x.utlb.filter keep })

/-- What a cached entry says of an access: allowed, a fault, or a miss (a write through an entry
whose D record is 0, R322). -/
inductive TlbSays where
  | pa (a : Nat)
  | fault (synd : Nat)
  | miss
  deriving DecidableEq, Repr

/-- DEDUCED, log entry 52. -/
def entrySays (r : XReq) (e : TlbEntry) : TlbSays :=
  match check1 r e.uPage e.x1 e.w1 with
  | some ty => .fault (syndrome r false e.l1 false ty)
  | none => match check2 r e.x2 e.w2 with
    | some ty => .fault (syndrome r true e.l2 false ty)
    | none => if r.kind.writes && !e.dirty then .miss else .pa (e.pa + r.va % e.size)

/-- A fault that a cached entry gives: the entry leaves the TLBs of the path first (R333). -/
def cachedFault (d : Dev) (path : XPath) (r : XReq) (e : TlbEntry) (s : Nat) : Dev × TlbSays :=
  let d := d.dropEntry path r
  (if bitN s 12 then d.noteStage2 r.ctx.part s (e.ipa + r.va % e.size) else d, .fault s)

/-- Looks an access up in the shared TLB of its path, whose hit fills the micro-TLB; there is none while the quadrant's
domain is not ON (R307). -/
def lookShared (d : Dev) (path : XPath) (r : XReq) : Dev × TlbSays :=
  if !d.domOn (granDom path.quad) then (d, .miss)
  else match (d.stlb.get [] path.quad).find? (fun (e : TlbEntry) => e.hits r.ctx r.va) with
    | none => (d, .miss)
    | some e => match entrySays r e with
      | .pa a => (d.fillMicro path e, .pa a)
      | .fault s => d.cachedFault path r e s
      | .miss => (d, .miss)

/-- Looks an access up in the TLBs of its path (R307, R322, R324): the micro-TLB, then the shared TLB. DEDUCED, log
entry 52. -/
def lookup (d : Dev) (path : XPath) (r : XReq) : Dev × TlbSays :=
  let mode := d.root2 r.ctx.part % 4
  if mode = 0 || !bitN r.ctx.x1.toNat 31 then (d, .miss)
  else
    let micro := match path.micro with
      | some t => (d.tiller t).utlb.find? (fun (e : TlbEntry) => e.hits r.ctx r.va)
      | none => none
    match micro with
    | none => d.lookShared path r
    | some e => match entrySays r e with
      | .pa a => (d, .pa a)
      | .fault s => d.cachedFault path r e s
      | .miss => d.lookShared path r

/-- Runs the walk of a miss and fills the TLBs (R324), or reports its fault. DEDUCED, log entry 51. -/
def walkFill (d : Dev) (path : XPath) (r : XReq) : Dev × Except XErr Nat :=
  if !d.domOn (granDom path.quad) then (d, .error .off)
  else match d.walk path.quad r with
    | (d, .ok e) =>
      let d := d.fillShared path.quad e
      (d.fillMicro path e, .ok (e.pa + r.va % e.size))
    | (d, .error (s, ipa)) =>
      (match ipa with
        | some i => d.noteStage2 r.ctx.part s i
        | none => d, .error (.fault s))

/-- A translation with its walk, where it needs one, run at once (seed streams, Drill channels).
DEDUCED, log entry 51. -/
def xlate (d : Dev) (path : XPath) (r : XReq) : Dev × Except XErr Nat :=
  match d.lookup path r with
  | (d, .pa a) => (d, .ok a)
  | (d, .fault s) => (d, .error (.fault s))
  | (d, .miss) => d.walkFill path r

/-- The context of a thread (R311): its tiller's partition, XCTX0, XCTX1, privilege and SUA. -/
def ctxOf (d : Dev) (t k : Nat) : XCtx :=
  let x := d.thread t k
  ⟨d.obj 0x6100 (t + 1) % 16, x.xctx0, x.xctx1, x.priv, x.sua⟩

def tillerPath (t : Nat) : XPath := ⟨some t, t / 24⟩

/-- A read-ahead of the page at `va` (R337): a walk that would set A or D, or that faults, fills nothing and reports
nothing. -/
def readAhead (d : Dev) (path : XPath) (r : XReq) : Dev :=
  let held := (match path.micro with
    | some t => (d.tiller t).utlb.any (fun (e : TlbEntry) => e.hits r.ctx r.va)
    | none => false) || (d.stlb.get [] path.quad).any (fun (e : TlbEntry) => e.hits r.ctx r.va)
  if held || !d.domOn (granDom path.quad) then d
  else
    let d := d.bump 0x6120 (path.quad + 1)
    match (d.walkRead path.quad r).2 with
    | .error _ => d
    | .ok (ups, e) => if ups.any needsUpdate then d else (d.fillShared path.quad e).fillMicro path e

/-! Walks that threads are parked for (R324, R328). -/

/-- Parks a thread for a walk: it runs once fewer than eight others of its walker stand before it. -/
def walkFrom (d : Dev) (t k : Nat) : Dev := { d with walkQ := d.walkQ.filter (· != 4 * t + k) ++ [4 * t + k] }

/-- The context and page of the walk that thread `i` is parked for. DEDUCED, log entry 51. -/
def walkPage (d : Dev) (i : Nat) : Option (Nat × Nat × Nat) :=
  let c := d.ctxOf (i / 4) (i % 4)
  match (d.thread (i / 4) (i % 4)).park with
  | .walk op => some (c.part, asidOf c, op.va / 4096)
  | .sowWalk _ _ va => some (c.part, asidOf c, va / 4096)
  | _ => none

/-- The pages that parked threads of quadrant `q` wait for, in order; one walk serves all that miss one page. -/
def pagesOf (d : Dev) (q : Nat) (is : List Nat) : List (Nat × Nat × Nat) := ((is.filter (fun i => i / 96 == q)).filterMap d.walkPage).eraseDups

/-- The walk that a thread is parked for is one of the eight that its walker runs (R324). -/
def walkRuns (d : Dev) (t k : Nat) : Bool :=
  decide (((d.pagesOf (t / 24) (d.walkQ.takeWhile (· != 4 * t + k))).filter (fun p => d.walkPage (4 * t + k) != some p)).length < 8)

/-! Invalidation (R326-R329, R595). -/

/-- An access to `n` bytes at `pa` was translated through one of these entries. DEDUCED, log entry 54. -/
def through (es : List TlbEntry) (pa n : Nat) : Bool := es.any (fun e => overlaps pa n e.pa e.size)

def markOp (who : Nat) (es : List TlbEntry) (op : MemOp) : MemOp :=
  if through es op.pa op.size then { op with stale := who :: op.stale } else op

/-- Marks the accesses in flight that were translated through removed entries, for `who` (R329). -/
def markStale (d : Dev) (who : Nat) (es : List TlbEntry) : Dev :=
  if es.isEmpty then d
  else { d with
    threads := d.threads.map (fun p => (p.1, { p.2 with
      sb := p.2.sb.map (fun e => if through es e.pa e.size then { e with stale := who :: e.stale } else e)
      park := match p.2.park with
        | .ldx op => .ldx (markOp who es op)
        | .stxFull op => .stxFull (markOp who es op)
        | .sowFetch w r va pa st => .sowFetch w r va pa (if through es pa 64 then who :: st else st)
        | x => x }))
    seeds := d.seeds.map (fun s => { s with strips := s.strips.map (fun r =>
      if r.writes.any (fun w => through es w.2.1 w.2.2.length) then { r with stale := who :: r.stale } else r) }) }

/-- The LDX reads XI_SYNC of some quadrant. -/
def isXiSyncPa (pa : Nat) : Bool := decide (0x000B_0170_0000 ≤ pa) && decide (pa < 0x000B_0180_0000) && pa % 0x4_0000 / 8 == 1

/-- An access in flight that was translated through an entry which `who` has removed (R329); reads of XI_SYNC
themselves are not waited for. DEDUCED, log entry 54. -/
def syncing (d : Dev) (who : Nat) : Bool :=
  d.threads.any (fun p => p.2.sb.any (fun e => e.stale.contains who) || (match p.2.park with
    | .ldx op => op.stale.contains who && !isXiSyncPa op.pa
    | .stxFull op => op.stale.contains who
    | .sowFetch _ _ _ _ st => st.contains who
    | _ => false)) ||
  d.seeds.any (fun s => s.strips.any (fun r => !r.writes.isEmpty && r.stale.contains who))

/-- The walks that run now start again (R328, R338). -/
def restartWalks (d : Dev) : Dev :=
  (List.range 4).foldl (fun d q =>
    (List.range (min 8 (d.pagesOf q d.walkQ).length)).foldl (fun d _ => d.bump 0x6121 (q + 1)) d) d

/-- An invalidation by `who`: the entries that are not kept leave every TLB, the accesses translated through them are
marked, and the walks that run start again (R327-R329). -/
def keepEntries (d : Dev) (who : Nat) (keep : TlbEntry → Bool) : Dev :=
  let gone := (d.stlb.flatMap Prod.snd ++ d.tillers.flatMap (fun p => p.2.utlb)).filter (fun e => !keep e)
  let d := (d.markStale who gone).restartWalks
  { d with
    stlb := d.stlb.map (fun p => (p.1, p.2.filter keep))
    tillers := d.tillers.map (fun p => (p.1, { p.2 with utlb := p.2.utlb.filter keep })) }

/-- XI_REQ VA (R327). -/
def xiVa (d : Dev) (who part asid va : Nat) : Dev :=
  d.keepEntries who (fun e => !(e.part == part && (e.asid == asid || e.glob) && e.va == va - va % e.size))
/-- XI_REQ VA_ANY_ASID (R327). -/
def xiVaAny (d : Dev) (who part va : Nat) : Dev :=
  d.keepEntries who (fun e => !(e.part == part && e.va == va - va % e.size))
/-- XI_REQ ASID (R327). -/
def xiAsid (d : Dev) (who part asid : Nat) : Dev :=
  d.keepEntries who (fun e => !(e.part == part && e.asid == asid && !e.glob))
/-- XI_REQ PARTITION (R327). -/
def xiPart (d : Dev) (who part : Nat) : Dev := d.keepEntries who (fun e => e.part != part)
/-- XI_REQ ALL (R327). -/
def xiAll (d : Dev) (who : Nat) : Dev := d.keepEntries who (fun _ => false)

/-- An 8-byte write of XI_REQ by `who` (R326, R595): for S-level STX the thread's partition replaces PART and
ALL acts as PARTITION (R327). -/
def xiReq (d : Dev) (who w : Nat) (own : Option Nat) : Dev :=
  let part := own.getD (fld w 11 8)
  let va := fld w 47 12 * 4096
  match fld w 63 60 with
  | 1 => d.xiVa who part (fld w 59 48) va
  | 2 => d.xiVaAny who part va
  | 3 => d.xiAsid who part (fld w 59 48)
  | 4 => d.xiPart who part
  | 5 => if own.isSome then d.xiPart who part else d.xiAll who
  | _ => d

end Dev
end Sys2Proof.Machine
end

