-- ==== Sys2Proof/Machine/Bus.lean ====
section
/-! DEFINITION. Accesses by physical address to everything but the device region's registers:
who may reach what, and how each access ends (R24, R27, R33, R282, R404). -/

namespace Sys2Proof.Machine
namespace Dev

def engine (d : Dev) (e : Nat) : Engine := d.engines.get {} e
def setEngine (d : Dev) (e : Nat) (x : Engine) : Dev := { d with engines := d.engines.put e x }
def pslot (d : Dev) (e s : Nat) : PSlot := (d.engine e).slots.get {} s
def setPslot (d : Dev) (e s : Nat) (x : PSlot) : Dev :=
  d.setEngine e { d.engine e with slots := (d.engine e).slots.put s x }

/-- The engine has an admitted or withdrawing slot (R24, R252): it is ARMED. -/
def armed (d : Dev) (e : Nat) : Bool :=
  (d.engine e).slots.any (fun p => p.2.st == .admitted || p.2.st == .withdrawing)

/-- Whether a Piste store serves an originator (R24). -/
def pisteServes (d : Dev) (o : Orig) (e : Nat) : Bool :=
  match o with
  | .engine f => e == f
  | .port _ p => p
  | .drill _ c => decide (c < 4)
  | .host | .bridge _ | .debug => !d.armed e
  | _ => false

/-- Holes of the device region by offset (R30, R31). -/
def devHole (o : Nat) : Bool :=
  (decide (0x60_0000 ≤ o) && decide (o < 0x80_0000)) || (decide (0xE0_0000 ≤ o) && decide (o < 0x100_0000)) ||
  decide (0x1A0_0000 ≤ o) || (decide (0x80_0000 ≤ o) && decide (o < 0xE0_0000) && decide (0x8000 ≤ o % 0x1_0000))

/-- Why memory outside the device region refuses an access; `none` where it is served. DEDUCED, log entry 17. -/
def refuses (d : Dev) (o : Orig) (pa : Nat) : Option AccErr :=
  match region pa with
  | .hole => some .paHole
  | .piste e _ => if !d.pisteServes o e then some .pisteGuard
                  else if d.backed pa then none else some .domainOff
  | .device o' => some (if devHole o' then .paHole else .devAccess)
  | .host o' =>
    if !d.backed pa then some .domainOff
    else if 2 ^ 64 ≤ d.obj 0x3300 1 + o' then some .paHole
    else if !d.pcie.busMaster || !d.pcie.up then some .errCompl else none
  | .peer p _ => if !d.backed pa then some .domainOff else if (d.bond p).st != .up then some .errCompl else none
  | _ => if d.backed pa then none else some .domainOff

/-- The first refusal among the bytes of an access. -/
def refusesRange (d : Dev) (o : Orig) (pa n : Nat) : Option AccErr :=
  match d.refuses o pa with
  | some e => some e
  | none => if n ≤ 1 then none else d.refuses o (pa + n - 1)

/-- Whether an address lies in the host window or a peer window: the access leaves the device. -/
def outside (pa : Nat) : Bool :=
  match region pa with
  | .host _ | .peer _ _ => true
  | _ => false

/-- The read request of a seed, a Drill or a port engine leaves the device (R396, R404). DEDUCED, log entry 83. -/
def outsideRequest (d : Dev) (pa n : Nat) : Dev :=
  match region pa with
  | .host o => d.hostReadReq (d.obj 0x3300 1 + o) n .taken
  | .peer p o => d.peerReads p (n / 256 + 2) o n
  | _ => d

/-- A read by a stream from outside the device: the data, or the error completion or timeout, is
whatever the other side answers: free values (log entry 7). DESIGN CHOICE, log entry 7; DEDUCED, log entry 83. -/
def outsideRead (d : Dev) : Nat → Dev × List W8
  | 0 => (d, [])
  | n + 1 =>
    let (d, v) := d.free
    let (d, r) := outsideRead d n
    (d, BitVec.ofNat 8 v :: r)

/-- Whether an outside read completes: a free choice of data, timeout or error completion.
DESIGN CHOICE, log entry 7; DEDUCED, log entry 83. -/
def outsideEnds (d : Dev) : Dev × Option AccErr :=
  let (d, v) := d.free
  (d, if v % 4 = 1 then some .timeout else if v % 4 = 2 then some .errCompl else none)

/-- A read of memory, the host window or a peer window by a stream or engine.
DESIGN CHOICE, log entries 7 and 55. -/
def streamRead (d : Dev) (o : Orig) (tport pa n : Nat) : Dev × Except AccErr (List W8) :=
  match d.refusesRange o pa n with
  | some e => (d, .error e)
  | none =>
    if outside pa then
      match (d.outsideRequest pa n).outsideEnds with
      | (d, some e) => (d, .error e)
      | (d, none) => let (d, bs) := d.outsideRead n; (d, .ok bs)
    else d.memRead o tport pa n

/-- Who made a write, as its originator tells. -/
def Orig.writer : Orig → Option WOrig
  | .thread t k _ => some (.thread t k)
  | .drill n c => some (.chan n c)
  | .host | .bridge _ | .debug => some .host
  | _ => none

/-- Attributes of an originator's host-window writes (R404): 0x3301 for seeds and Drills, none for the others. -/
def Orig.attr (d : Dev) : Orig → Nat
  | .stream _ | .drill _ _ => d.obj 0x3301 1 % 4
  | _ => 0

/-- Sends a write that leaves the device: a posted host write with its attributes, or Hedgerow WRITEs (R295, R396,
R398, R404). -/
def sendOutside (d : Dev) (pa : Nat) (bs : List W8) (who : Option WOrig) (attr : Nat) : Dev :=
  match region pa with
  | .host o => d.emit (.hostWrite (d.obj 0x3300 1 + o) attr bs)
  | .peer p o => d.peerWrite p o bs who
  | _ => d

/-- A write of memory, the host window or a peer window. -/
def streamWrite (d : Dev) (o : Orig) (pa : Nat) (bs : List W8) (who : Option WOrig := none) : Dev × Except AccErr Unit :=
  match d.refusesRange o pa bs.length with
  | some e => (d, .error e)
  | none => if outside pa then (d.sendOutside pa bs (who.or (Orig.writer o)) (Orig.attr d o), .ok ()) else d.memWrite pa bs

/-- The error of a bank-side operation whose target is no Granary or Loam bank (R282). -/
def bankTarget (d : Dev) (pa : Nat) : Option AccErr :=
  match region pa with
  | .loam _ | .granGlobal _ | .granQuad _ _ => if d.backed pa then none else some .domainOff
  | .hole => some .paHole
  | .piste _ _ => some .pisteGuard
  | .device o => some (if devHole o then .paHole else .devAccess)
  | _ => some .devAccess

/-- The nine bank operations on an item of `n` bytes (R282, R285): the new value, `none` where
nothing is written. -/
def bankOp (op n old x cmp : Nat) : Option Nat :=
  let w := 8 * n
  let x := x % 2 ^ w
  let cmp := cmp % 2 ^ w
  match op with
  | 0 => some ((old + x) % 2 ^ w)
  | 1 => some x
  | 2 => if old = cmp then some x else none
  | 3 => some (if sx w x < sx w old then x else old)
  | 4 => some (if sx w old < sx w x then x else old)
  | 5 => some (min old x)
  | 6 => some (max old x)
  | 7 => some (Nat.land old x)
  | 8 => some (Nat.lor old x)
  | _ => none

/-- One indivisible bank operation (R282): the item before it, or the error. -/
def bankDo (d : Dev) (o : Orig) (tport op n pa x cmp : Nat) : Dev × Except AccErr Nat :=
  match d.bankTarget pa with
  | some e => (d, .error e)
  | none => match d.memRead o tport pa n with
    | (d, .error e) => (d, .error e)
    | (d, .ok bs) =>
      let old := ofLE bs
      match bankOp op n old x cmp with
      | none => (d, .ok old)
      | some v => ((d.memWrite pa (toLE n v)).1, .ok old)

end Dev
end Sys2Proof.Machine
end

