-- ==== Sys2Proof/Machine/SeedChk.lean ====
section
/-! DEFINITION. The seed descriptor, its checks and its acceptance (R42-R75, R78-R81, R89). -/

namespace Sys2Proof.Machine

/-! Fields of CTRL (R44), of a descriptor's words. -/

def fOP (c : Nat) : Nat := fld c 7 0
def fTA (c : Nat) : Nat := fld c 11 8
def fTB (c : Nat) : Nat := fld c 15 12
def fTD (c : Nat) : Nat := fld c 19 16
def fBMODE (c : Nat) : Nat := fld c 21 20
def fMASKEN (c : Nat) : Bool := bitN c 22
def fMZERO (c : Nat) : Bool := bitN c 23
def fPX (c : Nat) : Bool := bitN c 24
def fSAT (c : Nat) : Bool := bitN c 25
def fEVT (c : Nat) : Bool := bitN c 26
def fCVEN (c : Nat) : Bool := bitN c 27
def fCVU (c : Nat) : Nat := fld c 32 28
def fSTRIP (c : Nat) : Nat := fld c 35 33
def fTLHOP (c : Nat) : Nat := fld c 38 36
def fTLOUT (c : Nat) : Bool := bitN c 39
def fAUX (c : Nat) : Nat := fld c 47 40
def fSTATE (c : Nat) : Nat := fld c 63 61

/-- What R53 says of an operation: its B operand, whether in place, towing and pausing. -/
structure OpInfo where
  hasB   : Bool := true
  scalar : Bool := true
  hopper : Bool := true
  inPlace : Bool := true
  towOut : Bool := true
  towIn  : Bool := true
  pause  : Bool := true
  deriving DecidableEq, Repr

/-- The table of R53; `none` for an OP that is not assigned. -/
def opInfo (op : Nat) : Option OpInfo :=
  if [0x01, 0x02, 0x03, 0x04, 0x05, 0x08, 0x09, 0x0A, 0x0C, 0x0D, 0x10, 0x20].contains op then some {}
  else if [0x06, 0x07, 0x0B, 0x11, 0x28].contains op then some { hasB := false, scalar := false, hopper := false }
  else if op = 0x12 || op = 0x13 then some { scalar := false }
  else if 0x18 ≤ op && op ≤ 0x1E then some { inPlace := false, towOut := false, towIn := false }
  else if op = 0x21 then some { hasB := false, scalar := false, hopper := false, towIn := false }
  else if op = 0x22 then some { hasB := false, scalar := false, hopper := false, towIn := false, inPlace := false }
  else if op = 0x30 then some { inPlace := false }
  else if op = 0x31 then some { scalar := false, hopper := false, inPlace := false }
  else if 0x38 ≤ op && op ≤ 0x3C then
    some { hasB := false, scalar := false, hopper := false, inPlace := false, towOut := false, pause := false }
  else if op = 0x3D then some { scalar := false, inPlace := false, towOut := false, pause := false }
  else if 0x40 ≤ op && op ≤ 0x42 then
    some { hasB := false, scalar := false, hopper := false, towOut := false, towIn := false, pause := false }
  else if op = 0x48 then some { scalar := false, hopper := false, inPlace := false, towIn := false }
  else if op = 0x49 then some { scalar := false, hopper := false, towOut := false, towIn := false }
  else if op = 0x4A then
    some { hasB := false, scalar := false, hopper := false, inPlace := false, towOut := false, towIn := false, pause := false }
  else if op = 0x50 then some { scalar := false, hopper := false, inPlace := false, towOut := false, towIn := false }
  else if op = 0x51 then some { hopper := false, inPlace := false, towOut := false, towIn := false }
  else none

/-- Reductions (R53). -/
def isRed (op : Nat) : Bool := decide (0x38 ≤ op) && decide (op ≤ 0x3D)
def isScan (op : Nat) : Bool := decide (0x40 ≤ op) && decide (op ≤ 0x42)

/-- A descriptor's words after CTRL (R42). -/
structure DWords where
  ctrl : Nat
  len  : Nat
  prog : Nat
  a    : Nat
  b    : Nat
  d    : Nat
  scalar : Nat
  scl0 : Nat
  xp   : Nat
  deriving DecidableEq, Repr

def DWords.ofBytes (bs : List W8) : DWords :=
  let w (i : Nat) : Nat := ofLE (slice bs (8 * i) 8)
  ⟨w 0, w 1 % 2 ^ 32, w 1 / 2 ^ 32, w 2, w 3, w 4, w 5, w 6, w 7⟩

namespace DWords

def op (x : DWords) : Nat := fOP x.ctrl
def info (x : DWords) : OpInfo := (opInfo x.op).getD {}
def ta (x : DWords) : ETy := (ETy.ofCode (fTA x.ctrl)).getD .u8
def tb (x : DWords) : ETy := (ETy.ofCode (fTB x.ctrl)).getD .u8
def td (x : DWords) : ETy := (ETy.ofCode (fTD x.ctrl)).getD .u8
def bmode (x : DWords) : Nat := fBMODE x.ctrl
def masked (x : DWords) : Bool := fMASKEN x.ctrl
/-- A is read as an operand: every operation but FILL. -/
def usesA (x : DWords) : Bool := x.op != 0x22
/-- The SH8 operands in the order A, B, D (R52). -/
def sheafs (x : DWords) : List Char :=
  (if x.usesA && x.ta == .sh8 then ['A'] else []) ++
  (if x.info.hasB && x.tb == .sh8 then ['B'] else []) ++
  (if x.td == .sh8 then ['D'] else [])
/-- Taps of SLIDE (R56). -/
def taps (x : DWords) : Nat := fAUX x.ctrl + 1
/-- s and radix of BFLY (R55, R57). -/
def bs (x : DWords) : Nat := 2 ^ (fAUX x.ctrl % 32)
def radix (x : DWords) : Nat := if bitN (fAUX x.ctrl) 5 then 4 else 2

end DWords

/-- RSVD_FIELD checks that do not depend on OP (R67). DEDUCED, log entry 23. -/
def rsvdFixed (x : DWords) : Bool :=
  let c := x.ctrl
  fSTATE c == 7 || decide (0xD ≤ fTA c) || decide (0xD ≤ fTB c) || decide (0xD ≤ fTD c) || fBMODE c == 3 ||
  (fBMODE c == 2 && (x.b / 128 != 0 || decide (4 < fld x.b 6 4) || fld x.b 3 0 % 2 ^ fld x.b 6 4 != 0)) ||
  (!fTLOUT c && fTLHOP c != 0) || (!fCVEN c && fCVU c != 0) || (!fMASKEN c && fMZERO c)

/-- SCALAR bits that must be zero (R58, R90, R91). -/
def rsvdScalar (x : DWords) : Bool :=
  let wide (n : Nat) : Bool := x.scalar / 2 ^ n != 0
  if x.op = 0x22 then wide x.td.bits
  else if x.op = 0x12 || x.op = 0x13 then wide (if x.td = .sh8 then 32 else x.td.bits)
  else if x.op = 0x4A then (if x.ta = .bit then wide 0 else wide (if x.ta = .sh8 then 32 else x.ta.bits))
  else if x.op = 0x50 then wide 32
  else if x.op = 0x51 then (if x.bmode = 1 then false else wide 32)
  else if x.bmode = 1 then wide x.tb.bits
  else wide 0

/-- AUX bits that must be zero and reserved AUX encodings (R55). -/
def rsvdAux (x : DWords) : Bool :=
  let a := fAUX x.ctrl
  if isScan x.op then decide (1 < a)
  else if x.op = 0x48 then false
  else if x.op = 0x49 then bitN a 7 || (bitN a 6 && !bitN a 5) || a % 32 == 31
  else if x.op = 0x4A then (if x.ta = .bit then a != 0 else decide (5 < a))
  else a != 0

/-- RSVD_FIELD checks that depend on OP: unused fields, type fields, AUX and SCALAR (R48, R50, R55,
R58). `towed`: A comes from the tow stream. DEDUCED, log entry 23. -/
def rsvdByOp (x : DWords) (towed : Bool) : Bool :=
  let nsh := x.sheafs.length
  (!x.usesA && fTA x.ctrl != 0) || (!x.info.hasB && fTB x.ctrl != 0) ||
  ((!x.usesA || towed) && x.a != 0) ||
  ((!x.info.hasB || x.bmode == 1) && x.b != 0) ||
  (fTLOUT x.ctrl && x.d != 0) ||
  (nsh == 0 && x.scl0 != 0) || (!x.masked && decide (nsh < 2) && x.xp != 0) ||
  rsvdAux x || rsvdScalar x

/-- The type combinations of R54. -/
def typeOk (x : DWords) : Bool :=
  let op := x.op
  let a := x.ta
  let b := x.tb
  let d := x.td
  let hb := x.info.hasB
  let same := a == d && (!hb || b == a)
  let sheafTy (t : ETy) : Bool := t == .sh8 || t == d
  let sheafed := (a == .sh8 || (hb && b == .sh8)) && sheafTy a && (!hb || sheafTy b) &&
    (d == .bf16 || d == .f16 || d == .f32 || d == .sh8)
  if 3 ≤ x.sheafs.length then false
  else if [0x01, 0x02, 0x03, 0x04, 0x05, 0x06, 0x07, 0x13].contains op then
    (same && (a.isInt || a.isFP)) || sheafed
  else if [0x10, 0x11, 0x12].contains op then (same && a.isFP) || sheafed
  else if [0x08, 0x09, 0x0A, 0x0B].contains op then same && (a.isInt || a == .bit)
  else if op = 0x0C || op = 0x0D then same && a.isInt
  else if 0x18 ≤ op && op ≤ 0x1E then
    d == .bit && ((a == b && (a.isInt || a.isFP)) ||
      ((a == .sh8 || a == .f32) && (b == .sh8 || b == .f32)))
  else if op = 0x20 then same && a != .sh8
  else if op = 0x21 then a == d
  else if op = 0x22 then d != .sh8
  else if op = 0x28 then a != .bit && d != .bit && a != d
  else if op = 0x30 then
    a == b && (match a, d with
      | .u8, .u16 | .i8, .i16 | .u16, .u32 | .i16, .i32 | .i32, .i64 => true
      | _, _ => false)
  else if op = 0x31 || op = 0x3D then
    let byte (t : ETy) : Bool := t == .i8 || t == .u8
    (byte a && byte b && (d == .i32 || (op == 0x3D && d == .i64))) ||
    (a == .sh8 && b == .sh8 && d == .f32) ||
    (op == 0x3D && a == b && a.isFP && a.widens d)
  else if op = 0x38 then
    (a.isInt && d.isInt && decide (a.bits ≤ d.bits)) || (a.isFP && a.widens d) || (a == .sh8 && d == .f32)
  else if op = 0x39 || op = 0x3A then
    ((a.isInt || a.isFP) && a == d) || (a == .sh8 && d == .f32)
  else if op = 0x3B || op = 0x3C then (a.isInt && a == d) || (a == .bit && d == .u8)
  else if isScan op then (a.isInt || a.isFP) && a == d
  else if op = 0x48 then
    a == b && (((a == .i8 || a == .u8 || a == .i16) && d == .i32) ||
      ((a == .sh8 || a == .bf16 || a == .f16 || a == .f32) && d == .f32))
  else if op = 0x49 then a == b && a == d && (a == .f16 || a == .f32)
  else if op = 0x4A then d == .u32
  else if op = 0x50 then a == .u32 && b != .bit && b != .sh8 && d == b
  else if op = 0x51 then a == .u32 && b.isInt && d == b
  else false

/-- OPERAND checks (R49, R52, R53, R61, R62, R89, R91). -/
def operandBad (x : DWords) : Bool :=
  let i := x.info
  (x.bmode == 1 && !i.scalar) || (x.bmode == 2 && !i.hopper) ||
  (x.bmode != 0 && i.hasB && (x.tb == .sh8 || x.tb == .bit)) ||
  decide (2 < x.sheafs.length + b2n x.masked) ||
  (x.op == 0x20 && (!x.masked || fMZERO x.ctrl)) ||
  (x.op == 0x49 && x.masked) ||
  (x.op != 0x20 && (x.td == .bit || x.td == .sh8) && x.masked && !fMZERO x.ctrl) ||
  (x.op == 0x51 && fSAT x.ctrl) ||
  (fSTATE x.ctrl == 2 && !i.pause)

/-- LENGTH checks (R64, R89). DEDUCED, log entry 24. -/
def lengthBad (x : DWords) : Bool :=
  let bits := (x.usesA && x.ta == .bit) || (x.info.hasB && x.tb == .bit) || x.td == .bit || x.masked
  (x.td == .sh8 && x.len % 32 != 0) ||
  (x.op == 0x49 && x.len % x.bs != 0) ||
  (fSTATE x.ctrl == 2 && (decide (x.len ≤ x.prog) ||
    (!x.sheafs.isEmpty && x.prog % 32 != 0) || (bits && x.prog % 8 != 0)))

/-- The roles of a seed's memory ranges (R72, R73). -/
inductive Role where
  | a | b | mask | scale | table | dst | dstScale
  deriving DecidableEq, Repr

def Role.isDst : Role → Bool
  | .dst | .dstScale => true
  | _ => false

/-- Bytes of `n` elements of a type, BIT rounded up to whole bytes (R72). -/
def spanBytes (t : ETy) (n : Nat) : Nat := if t = .bit then (n + 7) / 8 else n * t.size

/-- Elements of A, B and D a seed uses (R56-R60). -/
def countA (x : DWords) : Nat :=
  if x.op = 0x31 then 4 * x.len
  else if x.op = 0x48 then x.len + x.taps - 1
  else if x.op = 0x49 then 2 * x.radix * x.len
  else x.len
def countB (x : DWords) : Nat :=
  if x.op = 0x31 then 4 * x.len
  else if x.op = 0x48 then x.taps
  else if x.op = 0x49 then 2 * x.bs * (x.radix - 1)
  else x.len
def countD (x : DWords) : Nat :=
  if isRed x.op || x.op = 0x4A then 1
  else if x.op = 0x49 then 2 * x.radix * x.len
  else x.len

/-- The memory ranges of a seed: role, address field, bytes (R51, R52, R72, R90, R91). DEDUCED, log entry 25. -/
def rangesOf (x : DWords) (towed : Bool) : List (Role × Nat × Nat) :=
  let bound := x.scalar % 2 ^ 32
  let blocks (n : Nat) : Nat := (n + 31) / 32
  let sclLen (c : Char) : Nat :=
    if c = 'A' then blocks (countA x) else if c = 'B' then blocks (countB x) else blocks (countD x)
  let sclRole (c : Char) : Role := if c = 'D' then .dstScale else .scale
  let scl : List (Role × Nat × Nat) := match x.sheafs with
    | [c] => [(sclRole c, x.scl0, sclLen c)]
    | c :: e :: _ => (sclRole c, x.scl0, sclLen c) :: (if x.masked then [] else [(sclRole e, x.xp, sclLen e)])
    | [] => []
  (if x.usesA && !towed then [(.a, x.a, spanBytes x.ta (countA x))] else []) ++
  (if x.op = 0x50 then [(.table, x.b, bound * x.tb.size)]
   else if x.info.hasB && x.bmode = 0 then [(.b, x.b, spanBytes x.tb (countB x))] else []) ++
  (if x.masked then [(.mask, x.xp, (x.len + 7) / 8)] else []) ++ scl ++
  (if fTLOUT x.ctrl then []
   else if x.op = 0x51 then [(.dst, x.d, bound * x.td.size)]
   else [(.dst, x.d, spanBytes x.td (countD x))])

/-- A range whose address field fails the form check of R48: bits above 47, or past 2^48 (R64). -/
def addrBad (va n : Nat) : Bool := decide (2 ^ 48 ≤ va) || decide (2 ^ 48 < va + n)

/-- A range that touches a window of the physical map. -/
def touches (pa n lo hi : Nat) : Bool := overlaps pa (max n 1) lo (hi + 1 - lo)

/-- The OVERLAP rule on translated ranges (R72, R73); a range that starts in a hole lies in no window. -/
def overlapBad (op : Nat) (sameSize : Bool) (rs : List (Role × Rng)) : Bool :=
  let inPl := ((opInfo op).getD {}).inPlace && (op != 0x28 || sameSize)
  rs.any (fun p => !p.1.isDst && rs.any (fun q =>
    q.1.isDst && p.2.win != 0 && p.2.win == q.2.win && overlaps p.2.start p.2.len q.2.start q.2.len &&
    !(inPl && p.2 == q.2 && (p.1 == .a || p.1 == .b || p.1 == .scale))))

namespace Dev

/-! Seeds of a thread. -/

/-- Seeds of a thread in flight, in acceptance order. -/
def seedsOf (d : Dev) (t k : Nat) : List Seed := d.seeds.filter (fun s => s.tiller == t && s.thread == k)

/-- Slots of a thread whose seed is in flight (R68). -/
def slotsBusy (d : Dev) (t k : Nat) : List Nat :=
  (d.seedsOf t k).flatMap (fun s => (s.links.filter (fun l => !l.gone)).map Desc.slot)

/-- A seed ID of the thread is in flight (R140, R203). -/
def inFlight (d : Dev) (t k sid : Nat) : Bool :=
  (d.seedsOf t k).any (fun s => s.links.any (fun l => !l.gone && l.sid == sid))

/-- The open chain of a thread (R78). -/
def openChain (d : Dev) (t k : Nat) : Option Seed := (d.seedsOf t k).find? Seed.isOpen

/-- Hopper pairs a seed's links carry their results in (R44, R80). -/
def pairsOf (s : Seed) : List Nat :=
  (s.links.filter (fun l => fTLOUT l.ctrl)).map (fun l => fTLHOP l.ctrl)

/-- Hopper pairs held on tiller `t`: by chains it owns, until the seed that reads the pair leaves
flight, and by chain strips it gleans (R80, R219). -/
def heldPairs (d : Dev) (t : Nat) : List Nat :=
  d.seeds.flatMap (fun s =>
    if s.tiller = t then
      ((s.links.zip ((s.links.drop 1).map some ++ [none])).filter (fun p =>
        fTLOUT p.1.ctrl && (match p.2 with | some r => !r.gone | none => true))).map (fun p => fTLHOP p.1.ctrl)
    else if s.strips.any (fun r => r.tiller == t) then pairsOf s else [])

/-- A hopper is held by a chain (R80). -/
def hopperHeld (d : Dev) (t h : Nat) : Bool := (d.heldPairs t).contains (h / 2)

/-- Replaces a seed, found by the ID of its first link. -/
def putSeed (d : Dev) (s : Seed) : Dev :=
  { d with seeds := d.seeds.map (fun x =>
      if x.links.head?.map Desc.sid == s.links.head?.map Desc.sid && x.tiller == s.tiller && x.thread == s.thread
      then s else x) }

/-- Removes a seed from flight. -/
def dropSeed (d : Dev) (s : Seed) : Dev :=
  { d with seeds := d.seeds.filter (fun x =>
      !(x.links.head?.map Desc.sid == s.links.head?.map Desc.sid && x.tiller == s.tiller && x.thread == s.thread)) }

/-- Writes STATE, FCODE and the flag bits into a descriptor (R45); `who` is told if the write fails late. -/
def writeStatus (d : Dev) (t : Nat) (dpa state fcode : Nat) (flags : Cond) (who : Option WOrig := none) :
    Dev × Except AccErr Unit :=
  let v := state * 2 ^ 13 + fcode * 2 ^ 7 + flags.toNat % 2 ^ 7
  d.streamWrite (.stream t) (dpa + 6) (toLE 2 v) who

/-- Threads of a tiller parked on a hopper that no chain holds any more issue their instruction again (R80, R138).
DEDUCED, log entry 42. -/
def wakeHoppers (d : Dev) (t : Nat) : Dev :=
  (List.range 4).foldl (fun d k =>
    let x := d.thread t k
    match x.park with
    | .hopper h => if x.st == .parked && !d.hopperHeld t h then (d.setThread t k { x with pc := x.ipc }).resume t k else d
    | _ => d) d

/-- Performs the posted QUEUED writes of the seeds that meet `p` (R66 step 7, R69). DEDUCED, log entry 155. -/
def landQueued (d : Dev) (p : Seed → Bool) : Dev :=
  if !d.seeds.any (fun s => p s && s.links.any Desc.posted) then d
  else
    let due := (d.seeds.filter p).flatMap (fun s => (s.links.filter Desc.posted).map (fun l => (s.tiller, l)))
    let d := due.foldl (fun d q => (d.writeStatus q.1 q.2.dpa 1 0 (BitVec.ofNat 8 (fld q.2.ctrl 54 48))).1) d
    { d with seeds := d.seeds.map (fun s =>
        if p s then { s with links := s.links.map (fun l => { l with posted := false }) } else s) }

/-- Breaks the open chain of a thread (R81): every accepted seed of it is REJECTED with TOW_BREAK and no flag bit,
and its pairs and tracker entries are released. DESIGN CHOICE, log entry 156. -/
def breakChain (d : Dev) (t k : Nat) : Dev :=
  match d.openChain t k with
  | none => d
  | some s =>
    let d := d.landQueued (fun x => x.isOpen && x.tiller == t && x.thread == k)
    let d := s.links.foldl (fun d l => (d.writeStatus t l.dpa 5 0x0B 0).1) d
    ((d.dropSeed s).modThread t k (fun x => { x with towo := false })).wakeHoppers t

/-- A precise exception of an instruction: an open chain is broken (R81), then the entry. -/
def raiseExc (d : Dev) (t k vec info : Nat) (va : Option Nat) (saved : BitVec 14) : Dev :=
  (if (d.thread t k).dbg.busy then d else d.breakChain t k).takeExc t k ⟨vec, info, va, saved, false⟩

/-- Vector and INFO of an access error met by LDX, SOW or ATOM (R340). -/
def accExc (e : AccErr) : Nat × Nat :=
  match e with
  | .uncorr kind ls => if ls then (0x07, 0) else (0x06, kind)
  | e => (0x05, e.code)

/-! The tow rules (R78, R79). -/

/-- TOW_MISMATCH of a towed seed against its chain. -/
def towMismatch (s : Seed) (x : DWords) : Bool :=
  match s.links.head?, s.links.getLast? with
  | some head, some prev =>
    let ptd := (ETy.ofCode (fTD prev.ctrl)).getD .u8
    let pout := ((opInfo (fOP prev.ctrl)).getD {}).towOut
    !x.info.towIn || !pout || x.ta != ptd || x.ta == .sh8 || x.ta == .bit ||
    (if x.op = 0x31 then 4 * x.len != prev.len else x.len != prev.len) ||
    fSTRIP x.ctrl != 0 || fPX x.ctrl != fPX head.ctrl || (fCVEN x.ctrl && fTLOUT x.ctrl) ||
    (x.op == 0x31 && decide (5 ≤ prev.kdot)) || decide (8 ≤ s.links.length)
  | _, _ => true

/-- Step 4 of R66 in the order of R67: the FCODE of the first failing check, 0 for none. -/
def descCheck (d : Dev) (t k : Nat) (towed : Bool) (x : DWords) : Nat :=
  let ch := d.openChain t k
  if rsvdFixed x then 0x01
  else if (opInfo x.op).isNone then 0x02
  else if rsvdByOp x towed then 0x01
  else if !typeOk x then 0x03
  else if operandBad x then 0x04
  else if x.len != 0 && lengthBad x then 0x05
  else if towed && ch.isNone then 0x0B
  else if towed && (match ch with | some s => towMismatch s x | none => false) then 0x0C
  else if !towed && fCVEN x.ctrl && fTLOUT x.ctrl then 0x0C
  else if towed && fTLOUT x.ctrl && (match ch with | some s => (pairsOf s).contains (fTLHOP x.ctrl) | none => false)
  then 0x0D
  else if x.len != 0 && x.op = 0x4A && (d.thread t k).ct then 0x0E
  else if x.len != 0 && fCVEN x.ctrl &&
    (d.dict.rclaims.get 0 (0xA102 * 256 + fCVU x.ctrl + 1)).toNat != 0x300 + d.obj 0x6100 (t + 1) % 16 then 0x0F
  else if fSTATE x.ctrl = 1 then 0x0A
  else 0

/-- Step 5 of R66: translates the first byte of every range of the right form; a fault ends it.
DEDUCED, log entry 25. -/
def xlateRanges (d : Dev) (t : Nat) (ctx : XCtx) :
    List (Role × Nat × Nat) → Dev × Except (Nat × XErr) (List (Role × Rng × Nat))
  | [] => (d, .ok [])
  | (r, va, n) :: rs =>
    if addrBad va n || n = 0 then
      match xlateRanges d t ctx rs with
      | (d, .ok l) => (d, .ok l)
      | (d, .error e) => (d, .error e)
    else
      match d.xlate (tillerPath t) ⟨if r.isDst then .write else .read, ctx, va⟩ with
      | (d, .error e) => (d, .error (va, e))
      | (d, .ok pa) => match xlateRanges d t ctx rs with
        | (d, .ok l) => (d, .ok ((r, ⟨window pa, pa, n⟩, va) :: l))
        | (d, .error e) => (d, .error e)

/-- Step 6 of R66: ADDR_RANGE, DEV_RANGE, PISTE_RANGE, OVERLAP; 0 for none. -/
def addrCheck (x : DWords) (towed : Bool) (rs : List (Role × Rng × Nat)) : Nat :=
  let hit (lo hi : Nat) : Bool := rs.any (fun p => touches p.2.1.start p.2.1.len lo hi)
  if (rangesOf x towed).any (fun p => addrBad p.2.1 p.2.2) then 0x07
  else if hit 0x000B_0000_0000 0x000B_03FF_FFFF then 0x08
  else if hit 0x000A_0000_0000 0x000A_00FF_FFFF then 0x09
  else if overlapBad x.op (x.ta.size == x.td.size) (rs.map (fun p => (p.1, p.2.1))) then 0x06
  else 0

/-- The effective strip size (R44, R204, R207). -/
def stripSize (ctrl : Nat) (stripdef : W32) : Nat :=
  let n := fSTRIP ctrl
  if n != 0 then 2 ^ (9 + n)
  else
    let e := stripdef.toNat % 16
    if e < 8 then 2 ^ (12 + e) else 2 ^ (12 + e - 16)

/-- The lowest free seed slot of a thread (log entry 22). -/
def freeSlot (d : Dev) (t k : Nat) : Option Nat :=
  (List.range 8).find? (fun s => !(d.slotsBusy t k).contains s)

/-- Accepts a seed (R66 step 7, R68, R78): slot and ID, tracker entries, the snapshot of AMODE and
context, and the write of QUEUED that is posted (R69). A chain stands in the queue where its last seed was accepted.
Answers the seed ID. DEDUCED, log entry 28. -/
def acceptSeed (d : Dev) (t k : Nat) (towed : Bool) (dva dpa slot : Nat) (x : DWords) (ctx : XCtx)
    (rs : List (Role × Rng × Nat)) : Dev × Nat :=
  let th := d.thread t k
  let gen := (th.gens.get 0 slot).toNat
  let sid := gen * 2 ^ 12 + t * 32 + k * 8 + slot
  let kprev := match d.openChain t k with
    | some s => (s.links.getLast?.map Desc.kdot).getD 0
    | none => 0
  let l : Desc := {
    sid := sid, slot := slot, dva := dva, dpa := dpa, ctrl := x.ctrl, len := x.len,
    posted := true,
    prog := if fSTATE x.ctrl = 2 then x.prog else 0, aAddr := x.a, bAddr := x.b, dAddr := x.d,
    scalar := x.scalar, scl0 := x.scl0, xp := x.xp, amode := th.amode.toNat, ctx := ctx,
    kdot := if towed then kprev + b2n (x.op == 0x31) else 0,
    rset := if x.len = 0 then [] else (rs.filter (fun p => !p.1.isDst)).map (fun p => p.2.1),
    wset := if x.len = 0 then [] else (rs.filter (fun p => p.1.isDst)).map (fun p => p.2.1) }
  let d := match towed, d.openChain t k with
    | true, some s =>
      let d := d.dropSeed s
      { d with seeds := d.seeds ++ [{ s with links := s.links ++ [l], isOpen := fTLOUT x.ctrl }] }
    | _, _ =>
      let S := stripSize x.ctrl th.stripdef
      let s : Seed := { tiller := t, thread := k, links := [l], S := S, isOpen := fTLOUT x.ctrl, next := l.prog / S }
      { d with seeds := d.seeds ++ [s] }
  (d.modThread t k (fun y => { y with gens := y.gens.put slot (BitVec.ofNat 4 (gen + 1)), towo := fTLOUT x.ctrl }), sid)

end Dev
end Sys2Proof.Machine
end

