-- ==== Sys2Proof/Machine/StripRun.lean ====
section
/-! DEFINITION. What one strip reads, computes and writes (R49, R51, R56-R61, R65, R82, R84, R90,
R91, R131): operands are gathered index by index in order, so the first failing index is the lowest. -/

namespace Sys2Proof.Machine

/-- Why an access of a stream failed: FCODE, faulting VA, syndrome (R84, R356). -/
structure AFault where
  code : Nat
  va   : Nat
  synd : Nat := 0
  /-- the access was of a scale byte -/
  scale : Bool := false
  deriving DecidableEq, Repr

/-- What one index needs: enabled, selector bit, elements of A and of B. -/
structure GIn where
  i   : Nat
  en  : Bool
  sel : Bool
  as  : List Opnd
  bs  : List Opnd
  deriving DecidableEq, Repr

/-- One computed index: the result (none for BFLY, which gives several), its conditions. -/
structure GOut where
  i   : Nat
  en  : Bool
  res : ERes
  more : List Nat := []
  c   : Cond
  deriving DecidableEq, Repr

namespace Desc

def words (l : Desc) : DWords := ⟨l.ctrl, l.len, l.prog, l.aAddr, l.bAddr, l.dAddr, l.scalar, l.scl0, l.xp⟩
def mode (l : Desc) : AMode := ⟨l.amode % 4, bitN l.amode 2, fSAT l.ctrl⟩

/-- The address of the scale vector of operand `c` (R52). -/
def scaleAddr (l : Desc) (c : Char) : Nat :=
  match l.words.sheafs with
  | a :: _ => if a = c then l.scl0 else l.xp
  | [] => 0

/-- The scalar operand as read (R58). -/
def scalarOpnd (l : Desc) : Opnd :=
  let x := l.words
  let ftz := bitN l.amode 2
  let t : ETy :=
    if x.op = 0x22 then x.td
    else if x.op = 0x12 || x.op = 0x13 then (if x.td = .sh8 then .f32 else x.td)
    else if x.op = 0x4A then (if x.ta = .sh8 then .f32 else x.ta)
    else x.tb
  readOpnd t ftz (l.scalar % 2 ^ t.bits) 0

end Desc

/-- Who runs a stream: the running tiller for translation and ports, the owner for its hoppers; or a
Piste engine, whose seeds hold resolved store addresses and need no translation (R244). -/
structure StripCtx where
  runner : Nat
  owner  : Nat
  eng    : Option Nat := none
  deriving DecidableEq, Repr

namespace Dev

def xFault (va : Nat) : XErr → AFault
  | .fault s => ⟨0x20, va, s, false⟩
  | .off => ⟨0x22, va, 0, false⟩

/-- Translates `n` consecutive bytes (at most two pages) for a stream; a Piste engine's addresses are
physical. -/
def xlateBytes (d : Dev) (c : StripCtx) (ctx : XCtx) (kind : AccKind) (va n : Nat) : Dev × Except AFault (List Nat) :=
  if c.eng.isSome then (d, .ok ((List.range n).map (va + ·)))
  else
  match d.xlate (tillerPath c.runner) ⟨kind, ctx, va⟩ with
  | (d, .error e) => (d, .error (xFault va e))
  | (d, .ok pa) =>
    let here := min n (4096 - va % 4096)
    let first := (List.range here).map (pa + ·)
    if here = n then (d, .ok first)
    else
      let va2 := va + here
      match d.xlate (tillerPath c.runner) ⟨kind, ctx, va2⟩ with
      | (d, .error e) => (d, .error (xFault va2 e))
      | (d, .ok pb) => (d, .ok (first ++ (List.range (n - here)).map (pb + ·)))

/-- Splits a list of addresses into runs of consecutive ones. -/
def runs : List Nat → List (Nat × Nat)
  | [] => []
  | a :: rest => match runs rest with
    | (b, n) :: more => if b = a + 1 then (a, n + 1) :: more else (a, 1) :: (b, n) :: more
    | [] => [(a, 1)]

/-- A read of a Piste run from its engine's store: an uncorrectable error is counted in UE_CNT and
marks the run, which goes on with free values (R238, R240, R256). -/
def engineRead (d : Dev) (e pa n : Nat) : Dev × List W8 :=
  match d.memRead (.engine e) 0 pa n with
  | (d, .ok bs) => (d, bs)
  | (d, .error _) =>
    let x := d.engine e
    let d := d.setEngine e { x with
      ue := if x.ue = 0xFF then 0xFF else x.ue + 1,
      running := x.running.map (fun r => { r with ue := true }) }
    d.outsideRead n

/-- Reads one element's bytes (at most 8) through a stream port. -/
def readVa (d : Dev) (c : StripCtx) (tport : Nat) (ctx : XCtx) (va n : Nat) : Dev × Except AFault Nat :=
  match d.xlateBytes c ctx .read va n with
  | (d, .error e) => (d, .error e)
  | (d, .ok pas) =>
    let step (acc : Dev × Except AFault (List W8)) (r : Nat × Nat) : Dev × Except AFault (List W8) :=
      match acc, c.eng with
      | (d, .error e), _ => (d, .error e)
      | (d, .ok bs), some e => let (d, more) := d.engineRead e r.1 r.2; (d, .ok (bs ++ more))
      | (d, .ok bs), none => match d.streamRead (.stream c.runner) tport r.1 r.2 with
        | (d, .ok more) => (d, .ok (bs ++ more))
        | (d, .error e) => (d, .error ⟨e.code, va, 0, false⟩)
    match (runs pas).foldl step (d, .ok []) with
    | (d, .ok bs) => (d, .ok (ofLE bs))
    | (d, .error e) => (d, .error e)

/-- Reads element `i` of a memory operand of type `t` at `va`, with its scale byte if SH8. -/
def readElem (d : Dev) (c : StripCtx) (tport : Nat) (l : Desc) (t : ETy) (va i : Nat) (ch : Char) :
    Dev × Except AFault Opnd :=
  let ftz := bitN l.amode 2
  if t = .bit then
    match d.readVa c tport l.ctx (va + i / 8) 1 with
    | (d, .error e) => (d, .error e)
    | (d, .ok b) => (d, .ok (readOpnd .bit ftz (b2n (bitN b (i % 8))) 0))
  else
    let sc := if t = .sh8 then d.readVa c 3 l.ctx (l.scaleAddr ch + i / 32) 1 else (d, .ok 0)
    match sc with
    | (d, .error e) => (d, .error { e with scale := true })
    | (d, .ok s) => match d.readVa c tport l.ctx (va + i * t.size) t.size with
      | (d, .error e) => (d, .error e)
      | (d, .ok raw) => (d, .ok (readOpnd t ftz raw s))

/-- Reads several elements of an operand. -/
def readElems (d : Dev) (c : StripCtx) (tport : Nat) (l : Desc) (t : ETy) (va : Nat) (ch : Char) :
    List Nat → Dev × Except AFault (List Opnd)
  | [] => (d, .ok [])
  | i :: is => match d.readElem c tport l t va i ch with
    | (d, .error e) => (d, .error e)
    | (d, .ok o) => match readElems d c tport l t va ch is with
      | (d, .ok os) => (d, .ok (o :: os))
      | (d, .error e) => (d, .error e)

/-- Element `i` of a hopper group of the owner (R49, R146). -/
def hopElem (d : Dev) (owner : Nat) (l : Desc) (t : ETy) (i : Nat) : Opnd :=
  let first := l.bAddr % 16
  let n := 2 ^ fld l.bAddr 6 4
  let j := i % (64 * n / t.size) * t.size
  let bs := (List.range t.size).map (fun q => (d.tiller owner).hop.get 0 (64 * first + j + q))
  readOpnd t (bitN l.amode 2) (ofLE bs) 0

/-- Elements of A that index `i` needs (R56, R57, R59). -/
def needA (x : DWords) (i : Nat) : List Nat :=
  if x.op = 0x31 then (List.range 4).map (4 * i + ·)
  else if x.op = 0x48 then (List.range x.taps).map (i + ·)
  else if x.op = 0x49 then
    let j := i / x.bs * x.radix * x.bs + i % x.bs
    (List.range x.radix).flatMap (fun m => [2 * (j + m * x.bs), 2 * (j + m * x.bs) + 1])
  else if x.op = 0x22 then []
  else [i]

/-- Elements of B that index `i` needs. -/
def needB (x : DWords) (i : Nat) : List Nat :=
  if x.op = 0x31 then (List.range 4).map (4 * i + ·)
  else if x.op = 0x48 then List.range x.taps
  else if x.op = 0x49 then
    let q := i % x.bs
    (List.range (x.radix - 1)).flatMap (fun m =>
      let w := (x.radix - 1) * q + m
      [2 * w, 2 * w + 1])
  else [i]

/-- Operand B of an index: memory, scalar or hopper (R49). -/
def gatherB (d : Dev) (c : StripCtx) (l : Desc) (i : Nat) : Dev × Except AFault (List Opnd) :=
  let x := l.words
  if !x.info.hasB || x.op = 0x50 then (d, .ok [])
  else if x.op = 0x51 && x.bmode = 1 then
    let v := wrapI x.tb.bits (sx 32 (l.scalar / 2 ^ 32))
    (d, .ok [readOpnd x.tb false v 0])
  else if x.bmode = 1 then (d, .ok [l.scalarOpnd])
  else if x.bmode = 2 then (d, .ok [d.hopElem c.owner l x.tb i])
  else d.readElems c 1 l x.tb l.bAddr 'B' (needB x i)

/-- Operand A of an index: memory, or the tow stream whose element 0 is index `base`. -/
def gatherA (d : Dev) (c : StripCtx) (l : Desc) (tow : Option (Nat × List Nat)) (i : Nat) :
    Dev × Except AFault (List Opnd) :=
  let x := l.words
  match tow with
  | some (base, s) =>
    (d, .ok ((needA x i).map (fun e => readOpnd x.ta (bitN l.amode 2) (s.getD (e - base) 0) 0)))
  | none => d.readElems c 0 l x.ta l.aAddr 'A' (needA x i)

/-- TALLY's add at the bank to a bin whose bytes lie at `pas` (R91, R282): one bank operation, or the same add
in two parts where the bin crosses onto a page that lies elsewhere. -/
def tallyAdd (d : Dev) (runner : Nat) (pas : List Nat) (inc : Nat) : Dev × Except AccErr Unit :=
  let n := pas.length
  match runs pas with
  | [(pa, _)] => match d.bankDo (.stream runner) 2 0 n pa inc 0 with
    | (d, .ok _) => (d, .ok ())
    | (d, .error e) => (d, .error e)
  | rs => match pas.findSome? d.bankTarget with
    | some e => (d, .error e)
    | none =>
      let get (acc : Dev × Except AccErr (List W8)) (r : Nat × Nat) : Dev × Except AccErr (List W8) :=
        match acc with
        | (d, .error e) => (d, .error e)
        | (d, .ok bs) => match d.memRead (.stream runner) 2 r.1 r.2 with
          | (d, .ok more) => (d, .ok (bs ++ more))
          | (d, .error e) => (d, .error e)
      match rs.foldl get (d, .ok []) with
      | (d, .error e) => (d, .error e)
      | (d, .ok bs) =>
        let new := toLE n ((ofLE bs + inc) % 2 ^ (8 * n))
        ((rs.foldl (fun (acc : Dev × List W8) r =>
          ((acc.1.memWrite r.1 (acc.2.take r.2)).1, acc.2.drop r.2)) (d, new)).1, .ok ())

/-- What index `i` needs, or its fault. COLLECT reads its table at the bank; TALLY issues its add
(R90, R91). DEDUCED, log entry 21. -/
def gatherOne (d : Dev) (c : StripCtx) (l : Desc) (tow : Option (Nat × List Nat)) (i : Nat) :
    Dev × Except AFault GIn :=
  let x := l.words
  let mk := if x.masked then d.readVa c 3 l.ctx (l.xp + i / 8) 1 else (d, .ok 0xFF)
  match mk with
  | (d, .error e) => (d, .error e)
  | (d, .ok mb) =>
    let bit := !x.masked || bitN mb (i % 8)
    let en := bit || x.op == 0x20
    if !en then (d, .ok ⟨i, false, false, [], []⟩)
    else match d.gatherA c l tow i with
      | (d, .error e) => (d, .error e)
      | (d, .ok as) => match d.gatherB c l i with
        | (d, .error e) => (d, .error e)
        | (d, .ok bs) =>
          let idx := ((as.head?).map Opnd.raw).getD 0
          let bound := l.scalar % 2 ^ 32
          if (x.op = 0x50 || x.op = 0x51) && bound ≤ idx then (d, .error ⟨0x27, 0, 0, false⟩)
          else if x.op = 0x50 then
            let va := l.bAddr + idx * x.tb.size
            match d.xlateBytes c l.ctx .read va x.tb.size with
            | (d, .error e) => (d, .error e)
            | (d, .ok pas) => match pas.findSome? d.bankTarget with
              | some e => (d, .error ⟨e.code, va, 0, false⟩)
              | none => match d.readVa c 1 l.ctx va x.tb.size with
                | (d, .error e) => (d, .error e)
                | (d, .ok raw) => (d, .ok ⟨i, true, bit, as, [readOpnd x.tb false raw 0]⟩)
          else if x.op = 0x51 then
            let va := l.dAddr + idx * x.td.size
            match d.xlateBytes c l.ctx .write va x.td.size with
            | (d, .error e) => (d, .error e)
            | (d, .ok pas) =>
              let inc := ((bs.head?).map Opnd.raw).getD 0
              match d.tallyAdd c.runner pas inc with
              | (d, .error e) => (d, .error ⟨e.code, va, 0, false⟩)
              | (d, .ok _) => (d, .ok ⟨i, true, bit, as, bs⟩)
          else (d, .ok ⟨i, true, bit, as, bs⟩)

/-- The index that a fault met at index `i` reports: for a scale byte the first one of its block (R65).
DEDUCED, log entry 21. -/
def faultIdx (x : DWords) (i : Nat) (e : AFault) : Nat :=
  if !e.scale || x.op = 0x48 then i else if x.op = 0x31 then i / 8 * 8 else i / 32 * 32

/-- Gathers indices `lo`, `lo+1`, ... in order until one faults. DEDUCED, log entry 31. -/
def gather (d : Dev) (c : StripCtx) (l : Desc) (tow : Option (Nat × List Nat)) :
    Nat → Nat → List GIn → Dev × List GIn × Option (Nat × AFault)
  | 0, _, acc => (d, acc.reverse, none)
  | n + 1, i, acc => match d.gatherOne c l tow i with
    | (d, .error e) => (d, acc.reverse, some (faultIdx l.words i e, e))
    | (d, .ok g) => gather d c l tow n (i + 1) (g :: acc)

/-- Computes one gathered index of an elementwise operation, DOT4, SLIDE, BFLY or COLLECT. -/
def computeOne (l : Desc) (g : GIn) : GOut :=
  let x := l.words
  let m := l.mode
  let z : Opnd := readOpnd .u8 false 0 0
  if !g.en then ⟨g.i, false, .bits 0, [], 0⟩
  else if x.op = 0x31 then
    let (n, c) := dot4Elem x.ta m g.as g.bs
    ⟨g.i, true, .bits n, [], c⟩
  else if x.op = 0x48 then
    let (n, c) := slideElem x.ta m g.as g.bs
    ⟨g.i, true, .bits n, [], c⟩
  else if x.op = 0x49 then
    let cx (os : List Opnd) : List Cx := (List.range (os.length / 2)).map (fun q =>
      ⟨((os[2 * q]?).map Opnd.raw).getD 0, ((os[2 * q + 1]?).map Opnd.raw).getD 0⟩)
    let (rs, c) := butterfly x.ta.fmt m (x.radix == 4) (bitN (fAUX l.ctrl) 6) (cx g.as) (cx g.bs)
    ⟨g.i, true, .bits 0, rs.flatMap (fun r => [r.re, r.im]), c⟩
  else if x.op = 0x50 then ⟨g.i, true, .bits (((g.bs.head?).map Opnd.raw).getD 0), [], 0⟩
  else
    let (r, c) := elemOp x.op x.ta x.td m (g.as.headD z) (g.bs.headD z) l.scalarOpnd g.sel
    ⟨g.i, true, r, [], c⟩

/-- A write of bytes at a virtual address: the physical runs, or the fault. -/
def writeVa (d : Dev) (c : StripCtx) (l : Desc) (va : Nat) (bs : List W8) :
    Dev × Except AFault (List (Nat × List W8)) :=
  match d.xlateBytes c l.ctx .write va bs.length with
  | (d, .error e) => (d, .error e)
  | (d, .ok pas) =>
    (d, .ok (((runs pas).foldl (fun (acc : List (Nat × List W8) × List W8) (r : Nat × Nat) =>
      (acc.1 ++ [(r.1, acc.2.take r.2)], acc.2.drop r.2)) ([], bs)).1))

/-- One destination write of a strip: the index a fault of it reports, its address, its bytes. -/
structure DstWrite where
  i  : Nat
  va : Nat
  bs : List W8
  deriving DecidableEq, Repr

/-- Groups computed indices into chunks of `n` indices of the vector. -/
def chunksOf (n : Nat) (os : List GOut) : List (List GOut) :=
  ((os.map (fun o => o.i / n)).eraseDups).map (fun q => os.filter (fun o => o.i / n == q))

/-- The destination writes of computed indices (R51, R57, R61, R62, R108), with the conditions of
re-quantized blocks at their first index. The bits of a BIT byte that no computed index gives are 0.
DEDUCED, log entry 21; DESIGN CHOICE, log entry 163. -/
def dstWrites (l : Desc) (os : List GOut) : List DstWrite × List (Nat × Cond) :=
  let x := l.words
  let keep (o : GOut) : Bool := o.en || fMZERO l.ctrl
  if x.td = .bit then
    ((chunksOf 8 os).map (fun ch =>
      let i0 := ((ch.head?).map GOut.i).getD 0
      let b := ch.foldl (fun a o => match o.res with
        | .bits n => a + n % 2 * 2 ^ (o.i % 8)
        | .val _ => a) 0
      ⟨i0, l.dAddr + i0 / 8, [BitVec.ofNat 8 b]⟩), [])
  else if x.td = .sh8 then
    let blocks : List (List DstWrite × (Nat × Cond)) := (chunksOf 32 os).map (fun (ch : List GOut) =>
      let i0 := ((ch.head?).map GOut.i).getD 0 / 32 * 32
      let vals := (List.range 32).map (fun j => match ch.find? (fun o => o.i == i0 + j) with
        | some o => (match o.res with | .val v => v | .bits n => Fmt.f32.decode n, o.en)
        | none => (FV.fin false 0 0, false))
      let (e, ds, c) := requantize vals
      ((⟨i0, l.scaleAddr 'D' + i0 / 32, [BitVec.ofNat 8 e]⟩ : DstWrite) ::
        (ds.zipIdx.map (fun (p : Nat × Nat) => (⟨i0 + p.2, l.dAddr + i0 + p.2, [BitVec.ofNat 8 p.1]⟩ : DstWrite))), (i0, c)))
    (blocks.flatMap (·.1), blocks.map (·.2))
  else if x.op = 0x49 then
    (os.flatMap (fun o =>
      let j := o.i / x.bs * x.radix * x.bs + o.i % x.bs
      (List.range (2 * x.radix)).map (fun q =>
        ⟨o.i, l.dAddr + (2 * (j + q / 2 * x.bs) + q % 2) * x.td.size,
          toLE x.td.size (o.more.getD q 0)⟩)), [])
  else
    ((os.filter keep).map (fun o =>
      let n := match o.res with
        | .bits n => if o.en then n else 0
        | .val _ => 0
      ⟨o.i, l.dAddr + o.i * x.td.size, toLE x.td.size n⟩), [])

/-- Translates the destination writes in order; a fault's lowest index, and the runs of every write
that has an address. -/
def placeWrites (d : Dev) (c : StripCtx) (l : Desc) :
    List DstWrite → List (Nat × Nat × List W8) → Option (Nat × AFault) → Dev × List (Nat × Nat × List W8) × Option (Nat × AFault)
  | [], acc, f => (d, acc, f)
  | w :: ws, acc, f => match d.writeVa c l w.va w.bs with
    | (d, .ok rs) => placeWrites d c l ws (acc ++ rs.map (fun r => (w.i, r.1, r.2))) f
    | (d, .error e) =>
      let f' := match f with
        | some (j, e0) => if w.i < j then some (w.i, e) else some (j, e0)
        | none => some (w.i, e)
      placeWrites d c l ws acc f'

/-- The destination writes that go out, and their runs: those below a destination write that faulted, a sheaf
block of which is formed again from its elements below the fault (R84). -/
def placeBlock (d : Dev) (c : StripCtx) (l : Desc) (os : List GOut) (wf : Option (Nat × AFault)) (ws : List DstWrite)
    (placed : List (Nat × Nat × List W8)) : Dev × List DstWrite × List (Nat × Nat × List W8) :=
  match wf with
  | some (i, _) =>
    let below (w : DstWrite) : Bool := decide (w.i < i)
    if l.words.td = .sh8 then
      let ws := (dstWrites l (os.filter (fun o => decide (o.i < i)))).1.filter below
      let r := d.placeWrites c l ws [] none
      (r.1, ws, r.2.1)
    else (d, ws.filter below, placed.filter (fun (p : Nat × Nat × List W8) => decide (p.1 < i)))
  | none => (d, ws, placed)

/-- The lowest index whose conditions trap, with the cause (R130); conditions above it do not count
under PX (R131). -/
def firstTrap (amode : Nat) (cs : List (Nat × Cond)) : Option (Nat × Nat) :=
  (cs.find? (fun p => trapCause amode p.2 != 0)).map (fun p => (p.1, trapCause amode p.2))

/-- What a strip of one link comes to: conditions, its fault, the stream it passes on or the writes
it makes. -/
structure LinkRun where
  c      : Cond := 0
  fault  : Option SFault := none
  stream : List Nat := []
  writes : List (Nat × List W8) := []
  feed   : List W8 := []
  part   : Option PVal := none
  found  : Option Nat := none
  deriving DecidableEq, Repr

/-- Makes the fault of a trap at index `i` (R130, R131): it reports the index with PX, the whole strip without. -/
def trapFault (l : Desc) (lo hi runner : Nat) (i cause : Nat) : SFault :=
  if fPX l.ctrl then ⟨i, i, i, 0x26, 0, 0, cause, runner⟩ else ⟨i, lo, hi - 1, 0x26, 0, 0, cause, runner⟩

def memFault (runner : Nat) (p : Nat × AFault) : SFault := ⟨p.1, p.1, p.1, p.2.code, p.2.va, p.2.synd, 0, runner⟩

/-- The lower of two faults; at the same index the first. -/
def lowerFault (a b : Option SFault) : Option SFault :=
  match a, b with
  | some x, some y => if y.idx < x.idx then some y else some x
  | some x, none => some x
  | none, y => y

/-- Conditions that count: all of them, or under PX with a trap at `i` those up to it (R131). -/
def sumConds (px : Bool) (trap : Option (Nat × Nat)) (cs : List (Nat × Cond)) : Cond :=
  (cs.filter (fun p => match trap with
    | some (i, _) => !px || decide (p.1 ≤ i)
    | none => true)).foldl (fun c p => c ||| p.2) 0

/-- A reduction, the first pass of a scan, or FIND over one strip. Elements of a FIND strip above its match raise
nothing, and the lanes of a strip in which an element traps or cannot be read are not folded.
DEDUCED, log entry 34; DESIGN CHOICE, log entries 164 and 165. -/
def runFold (l : Desc) (lo hi runner : Nat) (gs : List GIn) (gf : Option (Nat × AFault)) : LinkRun :=
  let x := l.words
  let z : Opnd := readOpnd .u8 false 0 0
  if x.op = 0x4A then
    let tests : List (Nat × Bool × Cond) := gs.map (fun (g : GIn) =>
      if !g.en then (g.i, false, (0 : Cond))
      else if x.ta = .bit then (g.i, (g.as.headD z).raw == 1, 0)
      else
        let (r, c) := compareOp x.ta (fAUX l.ctrl) (g.as.headD z) l.scalarOpnd
        (g.i, r, c))
    let hit := tests.find? (fun (p : Nat × Bool × Cond) => p.2.1)
    let upto := match hit with
      | some p => tests.filter (fun (q : Nat × Bool × Cond) => decide (q.1 ≤ p.1))
      | none => tests
    let cs := upto.map (fun (p : Nat × Bool × Cond) => (p.1, p.2.2))
    let trap := firstTrap l.amode cs
    let tf := trap.map (fun p => trapFault l lo hi runner p.1 p.2)
    { c := sumConds (fPX l.ctrl) trap cs
      fault := match hit with
        | some _ => tf
        | none => lowerFault tf (gf.map (memFault runner))
      found := if tf.isSome then none else hit.map (·.1) }
  else
    let rin := gs.map (fun g => (⟨g.en, g.as.headD z, g.bs.headD z⟩ : RIn))
    let (p, cs0, fold) :=
      if isScan x.op then
        let (outs, tot) := scanStrip x.op x.ta l.mode false none rin ⟨identity (redKind x.op) x.ta x.ta, none⟩ []
        (tot, outs.map (·.2), (0 : Cond))
      else stripPartial x.op x.ta x.td l.mode rin
    let cs := (gs.map GIn.i).zip (if isScan x.op then cs0.map (· &&& ~~~ cSAT) else cs0)
    let cs := if isScan x.op || gf.isSome || (firstTrap l.amode cs).isSome then cs else (lo, fold) :: cs
    let trap := firstTrap l.amode cs
    let f := lowerFault (trap.map (fun p => trapFault l lo hi runner p.1 p.2)) (gf.map (memFault runner))
    { c := sumConds (fPX l.ctrl) trap cs, fault := f, part := if f.isSome then none else some p }

/-- The page that a stream of a link reaches next, where it lies at most 256 bytes after index `hi` (R337): the stream
ports may ask for its translation at the end of a strip. DESIGN CHOICE, log entry 55. -/
def aheadOf (x : DWords) (towed : Bool) (hi : Nat) : List (Bool × Nat) :=
  (rangesOf x towed).filterMap (fun r =>
    let at_ := r.2.1 + r.2.2 * hi / max 1 x.len
    let next := (at_ + 4095) / 4096 * 4096
    if (r.1 == .table || x.op == 0x51) || next = at_ && hi = 0 || 256 < next - at_ || r.2.1 + r.2.2 ≤ next then none
    else some (r.1.isDst, next))

/-- The read-aheads at the end of a strip of a link; a free value says which are made. DESIGN CHOICE, log entry 55. -/
def readAheads (d : Dev) (c : StripCtx) (l : Desc) (towed : Bool) (hi : Nat) : Dev :=
  if c.eng.isSome then d
  else (aheadOf l.words towed hi).foldl (fun d p =>
    let (d, v) := d.free
    if v % 2 = 0 then d else d.readAhead (tillerPath c.runner) ⟨if p.1 then .write else .read, l.ctx, p.2⟩) d

/-- One link over indices `lo..hi-1` of its own, with its A stream if towed. A sheaf block in which a
destination write faults is formed again from its elements below the fault (R84). TALLY writes no destination
stream and feeds no CVU. DEDUCED, log entry 28; DESIGN CHOICE, log entry 161. -/
def runLink (d : Dev) (c : StripCtx) (l : Desc) (tow : Option (Nat × List Nat)) (lo hi : Nat)
    (carry : Option (Option PVal)) : Dev × LinkRun :=
  let x := l.words
  let (d, gs, gf) := d.gather c l tow (hi - lo) lo []
  if (isRed x.op || x.op = 0x4A || isScan x.op) && carry.isNone then (d, runFold l lo hi c.runner gs gf)
  else
    let z : Opnd := readOpnd .u8 false 0 0
    let outs : List GOut := match carry with
      | some cy =>
        let rin := gs.map (fun g => (⟨g.en, g.as.headD z, z⟩ : RIn))
        let (os, _) := scanStrip x.op x.ta l.mode (bitN (fAUX l.ctrl) 0) cy rin
          ⟨identity (redKind x.op) x.ta x.ta, none⟩ []
        (gs.zip os).map (fun p => ⟨p.1.i, p.1.en, .bits p.2.1, [], p.2.2⟩)
      | none => gs.map (computeOne l)
    if x.op = 0x51 then (d, { fault := gf.map (memFault c.runner) })
    else
      let cs := outs.map (fun o => (o.i, o.c))
      let trap := firstTrap l.amode cs
      let upto := match trap with
        | some (i, _) => outs.filter (fun o => decide (o.i < i))
        | none => outs
      if fTLOUT l.ctrl then
        (d, { c := sumConds (fPX l.ctrl) trap cs
              fault := lowerFault (trap.map (fun p => trapFault l lo hi c.runner p.1 p.2)) (gf.map (memFault c.runner))
              stream := upto.map (fun o => match o.res with
                | .bits n => if o.en then n else 0
                | .val _ => 0) })
      else
        let (ws, bcs) := dstWrites l upto
        let trapB := firstTrap l.amode bcs
        let ws := match trapB with
          | some (i, _) => ws.filter (fun w => decide (w.i < i))
          | none => ws
        let (d, placed, wf) := d.placeWrites c l ws [] none
        let (d, ws, placed) := d.placeBlock c l upto wf ws placed
        let all := cs ++ bcs
        let trap2 := match trap, trapB with
          | some a, some b => if b.1 ≤ a.1 then some b else some a
          | some a, none => some a
          | none, b => b
        let f := lowerFault (lowerFault (trap2.map (fun p => trapFault l lo hi c.runner p.1 p.2))
          (gf.map (memFault c.runner))) (wf.map (memFault c.runner))
        (d, { c := sumConds (fPX l.ctrl) trap2 all, fault := f, writes := placed.map (fun (p : Nat × Nat × List W8) => (p.2.1, p.2.2))
              feed := if fCVEN l.ctrl then (ws.filter (fun w => !(x.td == .sh8 && decide (l.dAddr + w.i ≠ w.va)))).flatMap DstWrite.bs else [] })

/-- The tow stream of a link over one strip passes through its hopper pair on the running tiller, one hopper
filling while the other drains (R78, R82, R219). Which of the two fills first is free. DESIGN CHOICE, log entry 168. -/
def towThrough (d : Dev) (runner : Nat) (l : Desc) (s : List Nat) : Dev :=
  let bs := s.flatMap (toLE l.words.td.size)
  let (d, v) := d.free
  let n := bs.length
  let kept := min n 128
  d.modTiller runner (fun x => { x with
    hop := (bs.drop (n - kept)).zipIdx.foldl (fun m (p : W8 × Nat) =>
      m.put (128 * fTLHOP l.ctrl + (n - kept + p.2 + 64 * v) % 128) p.1) x.hop })

/-- Runs the links of a chain over head indices `lo..hi-1` (R82): each link's conditions, the lowest
fault with its link, and the last link's outcome. Links behind a faulting one go on below the fault, so
that every destination element below it is written (R84); a fault they meet there is the lower one.
DEDUCED, log entry 27. -/
def runChain (d : Dev) (c : StripCtx) (carry : Option (Option PVal)) (lo hi : Nat) :
    List Desc → Nat → Option (Nat × List Nat) → List Cond → Option (Nat × SFault) →
    Dev × List Cond × Option (Nat × SFault) × LinkRun
  | [], _, _, cs, bad => (d, cs.reverse, bad, {})
  | l :: ls, n, tow, cs, bad =>
    let q := 4 ^ l.kdot
    let (d, r) := d.runLink c l tow (lo / q) (hi / q) carry
    let d := d.readAheads c l tow.isSome (hi / q)
    let (bad, hi) := match r.fault with
      | some f => (some (n, f), min hi (f.idx * q))
      | none => (bad, hi)
    match ls with
    | [] => (d, (r.c :: cs).reverse, bad, r)
    | _ =>
      let (d, out) := runChain d c carry lo hi ls (n + 1) (some (lo / q, r.stream)) (r.c :: cs) bad
      (d.towThrough c.runner l r.stream, out)

end Dev
end Sys2Proof.Machine
end

