-- ==== Sys2Proof/Machine/SeedRun.lean ====
section
/-! DEFINITION. Running seeds: which strip comes next, gleaning, what a strip's start, report and
end do, the combine, and how faults and stops act across strips (R75, R83-R89, R159-R161,
R207-R235). -/

namespace Sys2Proof.Machine

namespace Seed

def sidOf (s : Seed) : Nat := (s.links.head?.map Desc.sid).getD 0
/-- The same seed of the same thread. -/
def same (a b : Seed) : Bool := a.tiller == b.tiller && a.thread == b.thread && a.sidOf == b.sidOf
def len (s : Seed) : Nat := (s.links.head?.map Desc.len).getD 0
def prog (s : Seed) : Nat := (s.links.head?.map Desc.prog).getD 0
def headCtrl (s : Seed) : Nat := (s.links.head?.map Desc.ctrl).getD 0
def lastCtrl (s : Seed) : Nat := (s.links.getLast?.map Desc.ctrl).getD 0
def px (s : Seed) : Bool := fPX s.headCtrl
def lastOp (s : Seed) : Nat := fOP s.lastCtrl
def scan (s : Seed) : Bool := isScan s.lastOp
def find (s : Seed) : Bool := s.lastOp == 0x4A
/-- A seed whose strips send partials to the stook (R222-R225). -/
def combines (s : Seed) : Bool := isRed s.lastOp || s.find || s.scan
/-- The CVU of a CVEN seed (R86). -/
def cvuOf (s : Seed) : Option Nat := if fCVEN s.lastCtrl then some (fCVU s.lastCtrl) else none
/-- Strips of the seed, and the first strip that exists (R208). -/
def total (s : Seed) : Nat := (s.len + s.S - 1) / s.S
def firstK (s : Seed) : Nat := s.prog / s.S
/-- The lowest reported fault as an index of the head (R82, R226). -/
def faultHead (s : Seed) : Option Nat :=
  s.fault.map (fun p => p.2.idx * 4 ^ ((s.links[p.1]?).map Desc.kdot).getD 0)
def lo (s : Seed) (k : Nat) : Nat := max (k * s.S) s.prog
/-- End of strip `k`; a second pass of a scan stops below the fault (R228). -/
def hi (s : Seed) (k : Nat) (pass2 : Bool) : Nat :=
  let h := min ((k + 1) * s.S) s.len
  match pass2, s.faultHead with
  | true, some f => min h f
  | _, _ => h
/-- Strips at or below the fault and the match may be handed out (R224, R226). -/
def allowed (s : Seed) (k : Nat) : Bool :=
  (match s.faultHead with | some f => decide (s.lo k ≤ f) | none => true) &&
  (match s.matched with | some m => decide (k ≤ m.1) | none => true)
/-- The lowest strip whose partial has not reached the stook (R223). -/
def gap (m : SMap PVal) : Nat := m.foldl (fun g p => if p.1 = g then g + 1 else g) 0

/-- `combine` of the strips from `a` on, `n` of them, where every op has been formed (R222): the op
that covers strips `a` to `a + n - 1` is held under `a * 2^32 + n`. -/
def nodeVal (s : Seed) (a n : Nat) : Option PVal :=
  if n ≤ 1 then SMap.find s.parts a else SMap.find s.nodes (a * 2 ^ 32 + n)

/-- Size of the left operand of the op over `n` strips: the largest power of two below `n`. -/
def leftOf (n : Nat) : Nat := 2 ^ (bitlen (n - 1) - 1)

/-- The first op, in strip order, whose operands are present and which has not been formed. DEDUCED, log entry 35. -/
def nextOp (s : Seed) : Nat → Nat → Nat → Option (Nat × Nat)
  | 0, _, _ => none
  | fuel + 1, a, n =>
    if n ≤ 1 || (s.nodeVal a n).isSome then none
    else
      let h := leftOf n
      if (s.nodeVal a h).isSome && (s.nodeVal (a + h) (n - h)).isSome then some (a, n)
      else match nextOp s fuel a h with
        | some r => some r
        | none => nextOp s fuel (a + h) (n - h)

/-- The next op of a seed: of the single combine, or of the lowest carry not formed (R223, R225).
DEDUCED, log entry 35. -/
def opToForm (s : Seed) : Option (Nat × Nat) :=
  if s.scan then
    match (List.range (gap s.parts + 1)).find? (fun k => decide (2 ≤ k) && decide (k < s.total) && (s.nodeVal 0 k).isNone) with
    | some k => s.nextOp 24 0 k
    | none => none
  else if isRed s.lastOp then s.nextOp 24 0 s.total
  else none

/-- Lower strips have ended (R159, R231). -/
def lowerEnded (s : Seed) (k : Nat) : Bool :=
  (s.done1.filter (fun j => decide (j < k))).length == k - s.firstK &&
  (!s.scan || (s.done2.filter (fun j => decide (j < k))).length == k - s.firstK)

/-- A first-pass strip may be handed out: order of PX and CVEN, the lead limit. -/
def ready1 (s : Seed) (k : Nat) : Bool :=
  decide (k < s.total) && s.allowed k && ((!s.px && s.cvuOf.isNone) || s.lowerEnded k) &&
  (!s.combines || decide (k < gap s.parts + 64))

/-- Strip `k` needs a second pass: it is one of a scan, and no fault lies at or below its first index (R228). -/
def wants2 (s : Seed) (k : Nat) : Bool :=
  s.scan && decide (k < s.total) && (match s.faultHead with | some f => decide (k * s.S < f) | none => true)

/-- A second-pass strip of a scan may be handed out: its carry has been formed (R225), and with PX or CVEN its lower
strips and its own first pass have ended (R159, R160, R231). -/
def ready2 (s : Seed) (k : Nat) : Bool :=
  s.wants2 k && ((!s.px && s.cvuOf.isNone) || (s.lowerEnded k && s.done1.contains k)) &&
  (k == 0 || (s.nodeVal 0 k).isSome)

/-- The strip the owner would hand out next (R159, R211, R232), if the seed may start. -/
def candidate (s : Seed) : Option (Nat × Bool) :=
  if s.isOpen || s.stop != 0 || s.links.any (fun l => l.fin.isSome) then none
  else match s.back.find? (fun p => s.allowed p.1 && (!p.2 || s.ready2 p.1)) with
    | some p => some p
    | none =>
      if s.ready2 s.next2 then some (s.next2, true)
      else if s.ready1 s.next then some (s.next, false) else none

/-- A strip held back only by the lead limit (R235). -/
def leadStalled (s : Seed) : Bool :=
  s.combines && !s.isOpen && s.stop == 0 && s.candidate.isNone &&
  decide (s.next < s.total) && s.allowed s.next && !s.px && decide (gap s.parts + 64 ≤ s.next)

/-- Marks a strip as handed out to tiller `t`. -/
def take (s : Seed) (p : Nat × Bool) (t : Nat) (started : Bool) : Seed :=
  let r : Strip := { k := p.1, pass2 := p.2, tiller := t, lo := s.lo p.1, hi := s.hi p.1 p.2, started := started }
  let s := { s with strips := s.strips ++ [r], started := true }
  if s.back.contains p then { s with back := s.back.filter (· != p) }
  else if p.2 then { s with next2 := p.1 + 1 } else { s with next := p.1 + 1 }

/-- Replaces the strip that `r` continues. -/
def putStrip (s : Seed) (r : Strip) : Seed :=
  { s with strips := s.strips.map (fun x => if x.k == r.k && x.pass2 == r.pass2 then r else x) }

def stripOf (s : Seed) (k : Nat) (pass2 : Bool) : Option Strip :=
  s.strips.find? (fun r => r.k == k && r.pass2 == pass2)

/-- A fault report reaches the stook (R226): F falls, and strips above it are abandoned. -/
def report (s : Seed) (n : Nat) (f : SFault) : Seed :=
  let h := f.idx * 4 ^ ((s.links[n]?).map Desc.kdot).getD 0
  let lower := match s.faultHead with
    | some g => decide (h < g)
    | none => true
  let s := if lower then { s with fault := some (n, f) } else s
  let F := (s.faultHead).getD h
  { s with strips := s.strips.map (fun r => if F < r.lo then { r with abandoned := true } else r) }

/-- Adds conditions to the flags of link `n`. -/
def addFlags (s : Seed) (n : Nat) (c : Cond) : Seed :=
  { s with links := s.links.modify n (fun l => { l with flags := l.flags ||| c }) }

/-- Every strip that must end has ended (R226, R228). -/
def stripsDone (s : Seed) : Bool :=
  let upto (d : List Nat) (n : Nat) : Bool := (d.filter (fun j => decide (j < n))).length == n - s.firstK
  s.strips.isEmpty &&
  (match s.faultHead, s.matched with
    | some f, _ => s.stop != 0 ||
        (upto s.done1 (min s.total (f / s.S + 1)) && (!s.scan || upto s.done2 ((f + s.S - 1) / s.S)))
    | none, some m => upto s.done1 (m.1 + 1)
    | none, none => upto s.done1 s.total && (!s.scan || upto s.done2 s.total))

/-- The combine of a reduction is formed. -/
def combined (s : Seed) : Bool := !isRed s.lastOp || s.total == 0 || (s.nodeVal 0 s.total).isSome

/-- The first index not done of a stopped seed (R88, R229). -/
def notDone (s : Seed) : Nat :=
  let k := s.back.foldl (fun a p => if p.2 == s.scan then min a p.1 else a) (if s.scan then s.next2 else s.next)
  if s.started then min (max (k * s.S) s.prog) s.len else s.prog

/-- A started seed with strips still to hand out, which a fault or a match may have put an end to (R224, R226):
PAUSE needs it to be marked Pause (R88). -/
def unfinished (s : Seed) : Bool :=
  s.started && (s.back.any (fun p => if p.2 then s.wants2 p.1 else s.allowed p.1) ||
    (decide (s.next < s.total) && s.allowed s.next) || s.wants2 s.next2)

/-- The conditions of a FIND that ends DONE: those of the strips up to the match (R94, R128). -/
def findConds (s : Seed) : Cond :=
  (s.conds.filter (fun p => match s.matched, s.fault with
    | some m, none => decide (p.1 ≤ m.1)
    | _, _ => true)).foldl (fun c p => c ||| p.2) 0

/-- Towed DOT4 seeds of the whole chain: 4 to this power head indices make one index of the last link (R82). -/
def kLast (s : Seed) : Nat := (s.links.getLast?.map Desc.kdot).getD 0

/-- The seed as it ends: a match below every fault makes a FIND end without one (R224, R226), and the conditions of
its strips count (R94). -/
def settled (s : Seed) : Seed :=
  let s := match s.matched, s.faultHead with
    | some m, some f => if m.2 < f then { s with fault := none } else s
    | _, _ => s
  if s.find then s.addFlags 0 s.findConds else s

end Seed

/-- A later seed's sets meet an earlier one's under R75. -/
def descWaits (l e : Desc) : Bool :=
  let meets (a b : List Rng) : Bool := a.any (fun x => b.any (fun y =>
    x.win != 0 && x.win == y.win && overlaps x.start x.len y.start y.len))
  !e.gone && (meets l.wset (e.rset ++ e.wset) || meets l.rset e.wset)

def seedWaits (s e : Seed) : Bool := s.links.any (fun l => e.links.any (fun m => descWaits l m))

namespace Dev

/-- The seed in flight that holds slot `slot` of a thread. -/
def seedAt (d : Dev) (t k slot : Nat) : Option Seed :=
  (d.seedsOf t k).find? (fun s => s.links.any (fun l => l.slot == slot && !l.gone))

/-- Seeds accepted before `s`. -/
def before (d : Dev) (s : Seed) : List Seed := d.seeds.takeWhile (fun x => !x.same s)

/-- R75 and R86 let a seed start. The seeds of one chain are not compared with each other.
DEDUCED, log entry 28; DESIGN CHOICE, log entry 157. -/
def mayStart (d : Dev) (s : Seed) : Bool :=
  !(d.before s).any (fun e =>
    (e.tiller == s.tiller && e.thread == s.thread && seedWaits s e) ||
    (s.cvuOf.isSome && e.cvuOf == s.cvuOf && !e.isOpen))

/-- The next strip of a seed that may run. -/
def runnable (d : Dev) (s : Seed) : Option (Nat × Bool) := if d.mayStart s then s.candidate else none

/-- Strips in progress on tiller `t`'s pipeline (R160). -/
def inProgress (d : Dev) (t : Nat) : Nat :=
  (d.seeds.flatMap (fun s => s.strips.filter (fun r => r.tiller == t && r.started))).length

/-- The threads of a tiller in rotation after the one served last (R159). -/
def rotation (d : Dev) (t : Nat) : List Nat := (List.range 4).map (fun i => ((d.tiller t).served + 1 + i) % 4)

/-- The tiller's own next strip: seed and strip (R159). -/
def nextOwn (d : Dev) (t : Nat) : Option (Seed × (Nat × Bool)) :=
  (d.rotation t).findSome? (fun k => (d.seedsOf t k).findSome? (fun s => (d.runnable s).map (fun p => (s, p))))

/-- A strip of a CVEN seed that has no CVU because PD75 is not ON: it ends with DOMAIN_OFF at the index of its first
destination element (R472). -/
def noCheckUnit (s : Seed) (r : Strip) : Nat × SFault :=
  let i := if isRed s.lastOp || s.find then 0 else r.lo / 4 ^ s.kLast
  (s.links.length - 1, ⟨i, i, i, 0x22, 0, 0, 0, r.tiller⟩)

/-- Runs strip `r` of seed `s` on its tiller: it reads and computes at once; its writes wait for
their acknowledgement (R159, R160, R218). A chain that resumes between two indices of its last link forms that link's
index again from its first head index. DEDUCED, log entries 27, 29 and 31. -/
def runStrip (d : Dev) (s : Seed) (r : Strip) : Dev :=
  let r := { r with started := true }
  let d := match s.cvuOf with
    | some u => d.cvuAsk u (.seed s.sidOf)
    | none => d
  if s.cvuOf.isSome && !d.domOn 75 then
    d.putSeed (s.putStrip { r with fault := some (noCheckUnit s r) })
  else
    let carry : Option (Option PVal) := if r.pass2 then some (if r.k = 0 then none else s.nodeVal 0 r.k) else none
    let from_ := r.lo / 4 ^ s.kLast * 4 ^ s.kLast
    let (d, cs, f, o) := d.runChain { runner := r.tiller, owner := s.tiller } carry from_ r.hi s.links 0 none [] none
    let s := if s.find then { s with conds := s.conds.put r.k (cs.headD 0) }
             else cs.zipIdx.foldl (fun s (p : Cond × Nat) => s.addFlags p.2 p.1) s
    d.putSeed (s.putStrip { r with
      writes := o.writes.map (fun (w : Nat × List W8) => (s.links.length - 1, w.1, w.2)),
      feed := o.feed, part := o.part, found := o.found, fault := f })

/-- Seeds with a CVU, or that wait for one, as PD75 leaves ON (R472): their strips in progress end with DOMAIN_OFF. -/
def seedsLoseChecks (d : Dev) : Dev :=
  { d with seeds := d.seeds.map (fun s =>
      if s.cvuOf.isNone then s
      else { s with strips := s.strips.map (fun r =>
        if r.started && !r.abandoned && r.fault.isNone && !r.reported then { r with fault := some (noCheckUnit s r) } else r) }) }

/-- STRIP_START on tiller `t` (R159, R160). -/
def stripStart (d : Dev) (t : Nat) : Dev :=
  if !d.tillerOn t || d.pipeFrozen t || decide (2 ≤ d.inProgress t) then d
  else match d.nextOwn t with
    | some (s, p) =>
      let d := (d.landQueued s.same).modTiller t (fun x => { x with served := s.thread })
      let landed : Seed := { s with links := s.links.map (fun l => { l with posted := false }) }
      let s := landed.take p t true
      let d := d.putSeed s
      match s.stripOf p.1 p.2 with
      | some r => d.runStrip s r
      | none => d
    | none =>
      match d.seeds.findSome? (fun s => (s.strips.find? (fun r => r.tiller == t && !r.started && !r.abandoned)).map (fun r => (s, r))) with
      | some (s, r) => d.runStrip s r
      | none => d

/-- STRIP_FAULT_REPORT (R226). -/
def stripFaultReport (d : Dev) (t k slot strip : Nat) (pass2 : Bool) : Dev :=
  match d.seedAt t k slot with
  | none => d
  | some s => match s.stripOf strip pass2 with
    | none => d
    | some r => match r.fault with
      | some (n, f) =>
        if r.reported then d else d.putSeed ((s.putStrip { r with reported := true }).report n f)
      | none => d

/-- STRIP_PARTIAL_ARRIVE (R223, R224). A partial that the stook holds already, of a strip returned under R232, is
kept. -/
def stripPartialArrive (d : Dev) (t k slot strip : Nat) : Dev :=
  match d.seedAt t k slot with
  | none => d
  | some s => match s.stripOf strip false with
    | none => d
    | some r =>
      if !r.started || r.reported || r.fault.isSome || r.abandoned || !s.combines then d
      else
        let s := s.putStrip { r with reported := true }
        if (SMap.find s.parts strip).isSome then d.putSeed s
        else if s.find then
          let s := { s with parts := s.parts.put strip {} }
          match r.found with
          | none => d.putSeed s
          | some i =>
            let m := match s.matched with
              | some m => if strip < m.1 then (strip, i) else m
              | none => (strip, i)
            d.putSeed { s with
              matched := some m,
              strips := s.strips.map (fun x => if m.1 < x.k then { x with abandoned := true } else x) }
        else match r.part with
          | some p => d.putSeed { s with parts := s.parts.put strip p }
          | none => d

/-- Performs a strip's writes in order; a failed one leaves an ASYNC_STORE record on the owner
(R221, R357). -/
def performWrites (d : Dev) (s : Seed) (r : Strip) (ws : List (Nat × Nat × List W8)) : Dev :=
  ws.foldl (fun d (w : Nat × Nat × List W8) =>
    let sid := ((s.links[w.1]?).map Desc.sid).getD 0
    match d.streamWrite (.stream r.tiller) w.2.1 w.2.2 (some (.seed s.tiller s.thread r.tiller sid)) with
    | (d, .ok _) => d
    | (d, .error e) =>
      d.asyncStore s.tiller s.thread e.code w.2.1 r.tiller ((s.links[w.1]?).map Desc.sid)) d

/-- Counts a strip that ended (R235). -/
def countStrip (d : Dev) (owner runner : Nat) : Dev :=
  if owner = runner then d.bump 0x4210 (owner + 1)
  else (d.bump 0x4211 (owner + 1)).bump 0x4212 (runner + 1)

/-- The destination stream of a CVEN seed cannot be fed: its CVU is another's, or frozen (R86, R563). -/
def noUnit (d : Dev) (s : Seed) : Bool :=
  match s.cvuOf with
  | some u => !d.cvuHas u (.seed s.sidOf) || d.frozen u
  | none => false

/-- STRIP_END (R221, R226-R228, R235). An abandoned strip has issued none, some or all of its
writes: a free value says how many (R227). DESIGN CHOICE, log entry 9; DEDUCED, log entries 29, 31 and 37. -/
def stripEnd (d : Dev) (t k slot strip : Nat) (pass2 : Bool) : Dev :=
  match d.seedAt t k slot with
  | none => d
  | some s => match s.stripOf strip pass2 with
    | none => d
    | some r =>
      let owes := (r.fault.isSome || (s.combines && !pass2)) && !r.reported && !r.abandoned
      let noCvu := !r.abandoned && r.fault.isNone && d.noUnit s
      if (!r.started && !r.abandoned) || owes || noCvu || d.pipeFrozen r.tiller then d
      else
        let (d, ws) := if r.abandoned then
            let (d, v) := d.free
            (d, r.writes.take (v % (r.writes.length + 1)))
          else (d, r.writes)
        let d := d.performWrites s r ws
        let d := match s.cvuOf with
          | some u => if r.abandoned || !d.cvuHas u (.seed s.sidOf) then d else d.cvuFeed u r.feed
          | none => d
        let s := { s with strips := s.strips.filter (fun x => !(x.k == strip && x.pass2 == pass2)) }
        if r.abandoned then (d.putSeed s).wakeHoppers r.tiller
        else
          let s := if pass2 then { s with done2 := strip :: s.done2 } else { s with done1 := strip :: s.done1 }
          ((d.putSeed s).countStrip s.tiller r.tiller).wakeHoppers r.tiller

/-- COMBINE_OP_DONE (R222, R223, R225): the next op is formed; its conditions count, and a trapping
one is a fault at the index of R131. DEDUCED, log entry 35. -/
def combineOpDone (d : Dev) (t k slot : Nat) : Dev :=
  match d.seedAt t k slot with
  | none => d
  | some s => match s.opToForm, s.links.getLast? with
    | some (a, n), some l =>
      let h := Seed.leftOf n
      match s.nodeVal a h, s.nodeVal (a + h) (n - h) with
      | some x, some y =>
        let td := if s.scan then l.words.ta else l.words.td
        let (p, c) := combineP (redKind s.lastOp) td l.mode x y
        let ln := s.links.length - 1
        let s := ({ s with nodes := s.nodes.put (a * 2 ^ 32 + n) p }).addFlags ln c
        let cause := trapCause l.amode c
        if cause = 0 then d.putSeed s
        else
          let at_ := if s.scan then a + n else a
          let q := 4 ^ l.kdot
          let lo := s.lo at_ / q
          let hi := s.hi at_ false / q
          let f : SFault := ⟨lo, lo, if s.px then lo else hi - 1, 0x26, 0, 0, cause, s.tiller⟩
          d.putSeed (s.report ln f)
      | _, _ => d
    | _, _ => d

/-! How a seed ends (R83-R85, R88). -/

/-- Writes the seed fault record of a slot (R355, R356). -/
def writeSfr (d : Dev) (t k slot : Nat) (sid fcode : Nat) (f : SFault) : Dev :=
  d.modThread t k (fun x =>
    let old := x.sfr.get {} slot
    let was := old.id.getLsbD 63
    let id := 2 ^ 63 + b2n (was || old.id.getLsbD 62) * 2 ^ 62 + fcode * 2 ^ 48 +
      (if fcode = 0x26 then f.tcause * 2 ^ 44 else 0) + (if fcode = 0x20 then f.synd % 2 ^ 16 * 2 ^ 16 else 0) + sid
    { x with sfr := x.sfr.put slot {
        id := BitVec.ofNat 64 id, idx := BitVec.ofNat 64 (f.hi * 2 ^ 32 + f.lo),
        va := BitVec.ofNat 64 (f.va % 2 ^ 48), orig := BitVec.ofNat 64 f.tiller } })

/-- How each link of a faulted seed ends: the faulting one with its FCODE, the others with CHAIN at
the corresponding index (R82, R84). -/
def faultEnds (s : Seed) (n : Nat) (f : SFault) : List Desc :=
  let m := ((s.links[n]?).map Desc.kdot).getD 0
  s.links.zipIdx.map (fun (p : Desc × Nat) =>
    if p.2 = n then { p.1 with fin := some ⟨4, f.code, f.lo⟩, fault := some f, wb := true }
    else
      let i := f.lo * 4 ^ m / 4 ^ p.1.kdot
      { p.1 with fin := some ⟨4, 0x29, i⟩, fault := some ⟨i, i, i, 0x29, 0, 0, 0, f.tiller⟩, wb := true })

/-- Ends every link with one STATE and FCODE at the head index `h`. -/
def allEnd (s : Seed) (state fcode h : Nat) : List Desc :=
  s.links.map (fun l => { l with fin := some ⟨state, fcode, h / 4 ^ l.kdot⟩, wb := true })

/-- R85: later seeds of the thread that would have waited on a faulted seed and have not started end
CANCELLED with DEP_FAULT, and so do those that would have waited on them. DEDUCED, log entry 30. -/
def depFault (d : Dev) (s : Seed) : Dev :=
  let later := ((d.seeds.dropWhile (fun x => !x.same s)).drop 1).filter (fun x => x.tiller == s.tiller && x.thread == s.thread)
  (later.foldl (fun (acc : Dev × List Seed) e =>
    if !e.started && e.links.all (fun l => l.fin.isNone) && acc.2.any (fun b => seedWaits e b) then
      let e' := { e with links := e.links.map (fun l => { l with fin := some ⟨6, 0x28, l.prog⟩, wb := true }), isOpen := false }
      let d := acc.1.putSeed e'
      (if e.isOpen then d.modThread e.tiller e.thread (fun x => { x with towo := false }) else d, acc.2 ++ [e])
    else acc) (d, [s])).1

/-- Ends a seed in FAULT: its records, then its write-back is issued (R84, R355), and R85. -/
def endFault (d : Dev) (s : Seed) (n : Nat) (f : SFault) : Dev :=
  let ls := faultEnds s n f
  let d := ls.foldl (fun d l => match l.fin, l.fault with
    | some e, some g => d.writeSfr s.tiller s.thread l.slot l.sid e.fcode g
    | _, _ => d) d
  (d.putSeed { s with links := ls }).depFault s

/-- The single result of a reduction or FIND: the bytes, and the conditions of its last conversion. -/
def resultOf (s : Seed) (l : Desc) : Option (List W8 × Cond) :=
  if s.len = 0 then none
  else if s.find then some (toLE 4 ((s.matched.map Prod.snd).getD 0xFFFFFFFF), 0)
  else if isRed s.lastOp then
    (s.nodeVal 0 s.total).map (fun p =>
      let (v, c) := finishP l.words.td (fSAT l.ctrl) (redKind s.lastOp) p
      (toLE l.words.td.size v, c))
  else none

/-- Every seed that the tiller's command affects has no strip in progress (R229). -/
def cmdDrained (d : Dev) (s : Seed) : Bool :=
  (d.tiller s.tiller).cmds.all (fun c => !c.ids.contains s.sidOf ||
    d.seeds.all (fun x => !(x.tiller == s.tiller && c.ids.contains x.sidOf) || x.strips.isEmpty))

/-- A fault of an earlier seed that the command affects stands and has not ended that seed: R85 goes before the
command (R230). -/
def faultFirst (d : Dev) (s : Seed) : Bool :=
  (d.before s).any (fun e => e.tiller == s.tiller && e.thread == s.thread && e.settled.fault.isSome &&
    e.links.any (fun l => l.fin.isNone))

/-- Every link ends DONE (R83). -/
def doneEnds (s : Seed) : List Desc := s.links.map (fun l => { l with fin := some ⟨3, 0, l.len⟩, wb := true })

/-- Writes the single result of a reduction or FIND, which a CVEN seed feeds to its CVU (R86), and ends the seed. -/
def endResult (d : Dev) (s : Seed) (l : Desc) (bs : List W8) (c : Cond) : Dev :=
  let t := s.tiller
  let ln := s.links.length - 1
  let s := s.addFlags ln c
  let cause := trapCause l.amode c
  if cause ≠ 0 then
    d.endFault s ln ⟨0, 0, if s.px then 0 else s.hi 0 false / 4 ^ l.kdot - 1, 0x26, 0, 0, cause, t⟩
  else match d.writeVa { runner := t, owner := t } l l.dAddr bs with
    | (d, .error e) => d.endFault s ln ⟨0, 0, 0, e.code, e.va, e.synd, 0, t⟩
    | (d, .ok rs) =>
      let r : Strip := { k := 0, tiller := t, lo := 0, hi := 0 }
      let d := d.performWrites s r (rs.map (fun (w : Nat × List W8) => (ln, w.1, w.2)))
      let d := match s.cvuOf with
        | some u => d.cvuFeed u bs
        | none => d
      d.putSeed { s with links := doneEnds s }

/-- SEED_END (R83, R84, R88, R226, R229, R230): the result is written, and the write-back is issued. -/
def seedEnd (d : Dev) (t k slot : Nat) : Dev :=
  match d.seedAt t k slot with
  | none => d
  | some s0 =>
    if s0.links.any (fun l => l.fin.isSome) then d
    else
      let s := s0.settled
      match s.fault, s.links.getLast? with
      | some (n, f), some _ => if s.stripsDone then d.endFault s n f else d
      | none, some l =>
        if !s.isOpen && s.stripsDone && s.combined then
          match resultOf s l with
          | none => d.putSeed { s with links := doneEnds s }
          | some (bs, c) =>
            if s.cvuOf.isSome && !d.domOn 75 then d.endFault s (s.links.length - 1) ⟨0, 0, 0, 0x22, 0, 0, 0, t⟩
            else if d.noUnit s then d
            else d.endResult s l bs c
        else if s.stop != 0 && (s.isOpen || !s.stripsDone) && s.strips.isEmpty && d.cmdDrained s && !d.faultFirst s then
          let (st, fc) := if s.stop = 1 then (2, 0) else (6, 0x2A)
          let d := d.putSeed { s with links := allEnd s st fc s.notDone, isOpen := false }
          if s.isOpen then d.modThread t k (fun x => { x with towo := false }) else d
        else d
      | _, _ => d

end Dev
end Sys2Proof.Machine
end

