-- ==== Sys2Proof/Machine/SeedSow.lean ====
section
/-! DEFINITION. SOW and TOW step by step (R66, R67, R78-R81), the write-back that ends a seed's
flight (R83, R355), PAUSE and CANCEL (R88, R203), gleaning requests and grants (R210-R219), and
what a power-down of a tiller does to seeds and strips (R87, R232). -/

namespace Sys2Proof.Machine
namespace Dev

/-- Parks a thread; a thread that is STOPPING stays so (R169). -/
def parkAs (d : Dev) (t k : Nat) (p : Park) : Dev :=
  d.modThread t k (fun x => { x with st := if x.st == .stopping then .stopping else .parked, park := p })

/-- SOW and TOW at steps 1 to 3 (R66): they wait for the store buffer and for a slot, then the
descriptor's address is translated. -/
def sowTry (d : Dev) (t k : Nat) (towed : Bool) (reg va : Nat) : Dev :=
  let x := d.thread t k
  if !x.sb.isEmpty || decide (8 ≤ (d.slotsBusy t k).length) then d.parkAs t k (.sowDrain towed reg va)
  else if va % 64 ≠ 0 then d.raiseExc t k 0x02 0 (some va) x.ipc
  else match d.lookup (tillerPath t) ⟨.fetch, d.ctxOf t k, va⟩ with
    | (d, .pa pa) => d.parkAs t k (.sowFetch towed reg va pa)
    | (d, .fault s) => d.raiseExc t k 0x04 s (some va) x.ipc
    | (d, .miss) => (d.parkAs t k (.sowWalk towed reg va)).walkFrom t k

/-- SOW breaks a chain that is open (R81) and starts its steps; TOW starts them. -/
def sowStart (d : Dev) (t k : Nat) (towed : Bool) (reg va : Nat) : Dev :=
  (if towed then d else d.breakChain t k).sowTry t k towed reg va

/-- Rejects a seed (R67): SEEDFC, the descriptor, SEED_REJECT. -/
def sowReject (d : Dev) (t k dpa code : Nat) (bs : DWords) : Dev :=
  let d := d.modThread t k (fun x => { x with seedfc := BitVec.ofNat 32 code })
  let d := (d.writeStatus t dpa 5 code (BitVec.ofNat 8 (fld bs.ctrl 54 48))).1
  d.raiseExc t k 0x09 code none (d.thread t k).ipc

/-- A pair that another chain of the tiller holds (R80). DEDUCED, log entry 26. -/
def pairHeldByOther (d : Dev) (t k p : Nat) : Bool :=
  let others := d.seeds.filter (fun s => !(s.tiller == t && s.thread == k && s.isOpen))
  ({ d with seeds := others }).heldPairs t |>.contains p

/-- SOW_DESCRIPTOR_RETURN: steps 3 to 8 of R66. A SOW that waits at step 1 or 2 looks again whether
it may go on. The QUEUED writes the thread itself has posted are performed before its fetch.
DEDUCED, log entries 26 and 155. -/
def sowReturn (d : Dev) (t k : Nat) : Dev :=
  let x := d.thread t k
  match x.park with
  | .sowFetch towed reg va pa _ =>
    let d := d.landQueued (fun s => s.tiller == t && s.thread == k)
    match d.streamRead (.thread t k x.priv) 3 pa 64 with
    | (d, .error e) => d.raiseExc t k (accExc e).1 (accExc e).2 (some va) x.ipc
    | (d, .ok bs) =>
      let w := DWords.ofBytes bs
      let code := d.descCheck t k towed w
      if fTLOUT w.ctrl && d.pairHeldByOther t k (fTLHOP w.ctrl) then d.parkAs t k (.sowDrain towed reg va)
      else if code ≠ 0 then d.sowReject t k pa code w
      else
        let ctx := d.ctxOf t k
        let rs := if w.len = 0 then (d, .ok []) else d.xlateRanges t ctx (rangesOf w towed)
        match rs with
        | (d, .error (fva, .fault s)) => d.raiseExc t k 0x04 s (some fva) x.ipc
        | (d, .error (fva, .off)) => d.raiseExc t k 0x05 0x22 (some fva) x.ipc
        | (d, .ok rs) =>
          let code := if w.len = 0 then 0 else addrCheck w towed rs
          if code ≠ 0 then d.sowReject t k pa code w
          else match d.freeSlot t k with
            | none => d.parkAs t k (.sowDrain towed reg va)
            | some slot =>
              let (d, sid) := d.acceptSeed t k towed va pa slot w ctx rs
              (d.modThread t k (fun x => x.wr reg (BitVec.ofNat 32 sid))).resume t k
  | .sowDrain towed reg va => d.sowTry t k towed reg va
  | _ => d

/-- SOW and TOW that wait at step 1 or 2 go on if they can. -/
def retrySows (d : Dev) (t : Nat) : Dev :=
  (List.range 4).foldl (fun d k =>
    match (d.thread t k).park with
    | .sowDrain towed reg va => d.sowTry t k towed reg va
    | _ => d) d

/-- The condition of a WAIT (R140). -/
def waitDone (d : Dev) (t k op : Nat) : Bool :=
  if op = 0 then (d.slotsBusy t k).isEmpty
  else if op = 0xFFFF then false
  else !d.inFlight t k op

/-- A thread in WAIT whose condition holds goes on. -/
def wakeWait (d : Dev) (t k : Nat) : Dev :=
  let x := d.thread t k
  match x.st, x.park with
  | .waiting, .wait op => if d.waitDone t k op then d.resume t k else d
  | _, _ => d

/-- Frees what a seed that left flight held. -/
def afterFlight (d : Dev) (t k : Nat) : Dev := ((d.wakeWait t k).wakeHoppers t).retrySows t

/-- SEED_WRITEBACK_ACK (R83, R355): PROGRESS and then STATUS are in memory, or an ASYNC_STORE record
says they are not; the seed leaves flight and its event is raised. STATUS is not written after a write of
PROGRESS that failed. DESIGN CHOICE, log entry 159. -/
def seedWritebackAck (d : Dev) (t k slot : Nat) : Dev :=
  match d.seedAt t k slot with
  | none => d
  | some s => match s.links.find? (fun l => l.slot == slot && !l.gone) with
    | none => d
    | some l => match l.fin with
      | none => d
      | some e =>
        let who : Option WOrig := some (.seed t k t l.sid)
        let d := d.landQueued s.same
        let d := match d.streamWrite (.stream t) (l.dpa + 12) (toLE 4 e.prog) who with
          | (d, .ok _) => match d.writeStatus t l.dpa e.state e.fcode l.flags who with
            | (d, .ok _) => d
            | (d, .error a) => d.asyncStore t k a.code (l.dpa + 6) t (some l.sid)
          | (d, .error a) => d.asyncStore t k a.code (l.dpa + 12) t (some l.sid)
        let bit : W8 := BitVec.ofNat 8 (2 ^ slot)
        let d := if e.state = 3 && fEVT l.ctrl then d.modThread t k (fun x => { x with sdone := x.sdone ||| bit })
          else if e.state = 4 then d.modThread t k (fun x => { x with sfault := x.sfault ||| bit })
          else d
        let s := { s with links := s.links.map (fun (m : Desc) =>
          if m.sid == l.sid then { m with gone := true, posted := false } else { m with posted := false }) }
        let d := if s.links.all Desc.gone then
            let d := match s.cvuOf with
              | some u => d.cvuRelease u (.seed s.sidOf)
              | none => d
            d.dropSeed s
          else d.putSeed s
        d.afterFlight t k

/-! PAUSE and CANCEL. -/

/-- SEEDCTL with RESULT `r` and BUSY clear (R202). -/
def seedctlDone (d : Dev) (t k r : Nat) : Dev :=
  d.modThread t k (fun x => { x with seedctl := BitVec.ofNat 32 (x.seedctl.toNat % 2 ^ 16 + r * 2 ^ 29) })

/-- MTS to SEEDCTL (R203): CMD 0 (or the reserved 3, R16) writes SID; a command while BUSY parks;
otherwise BUSY is set and the command takes its place in the tiller's order. DEDUCED, log entry 44. -/
def seedctlWrite (d : Dev) (t k : Nat) (v : W32) : Dev :=
  let x := d.thread t k
  let cmd := fld v.toNat 17 16
  let sid := v.toNat % 2 ^ 16
  if cmd = 0 || cmd = 3 then
    d.setThread t k { x with seedctl := BitVec.ofNat 32 (putFld x.seedctl.toNat 15 0 sid) }
  else if x.seedctl.getLsbD 31 then d.parkAs t k (.seedctl v)
  else
    let d := d.setThread t k { x with seedctl := BitVec.ofNat 32 (putFld (putFld x.seedctl.toNat 15 0 sid) 31 31 1) }
    let c : SeedCmd := { thread := k, cancel := cmd == 2, sid := sid }
    d.modTiller t (fun y => { y with cmds := y.cmds ++ [c] })

/-- A thread that waited for BUSY starts its command. -/
def seedctlResume (d : Dev) (t k : Nat) : Dev :=
  match (d.thread t k).park with
  | .seedctl v => (d.seedctlWrite t k v).resume t k
  | _ => d

/-- Ends the front command with RESULT `r`. -/
def cmdPop (d : Dev) (t k r : Nat) : Dev :=
  let d := d.modTiller t (fun y => { y with cmds := y.cmds.drop 1 })
  (d.seedctlDone t k r).seedctlResume t k

/-- Starts the front command of a tiller if it is a PAUSE (`cancel` false) or a CANCEL: SEED_PAUSE and
SEED_CANCEL (R88, R203). A command that names a later link of a chain stops the chain.
DEDUCED, log entry 44; DESIGN CHOICE, log entry 160. -/
def seedCmdStart (d : Dev) (t : Nat) (cancel : Bool) : Dev :=
  match (d.tiller t).cmds with
  | c :: rest =>
    if c.started || c.cancel != cancel then d
    else
      let th := fld c.sid 4 3
      match (if fld c.sid 11 5 = t then (d.seedsOf t th).find? (fun s => s.links.any (fun l => l.sid == c.sid && !l.gone)) else none) with
      | none => d.cmdPop t c.thread 3
      | some s =>
        let aff := ((d.seedsOf t th).dropWhile (fun x => !x.same s)).filter (fun x => x.links.all (fun l => l.fin.isNone))
        let bad := aff.any (fun x => x.unfinished && x.links.any (fun l => !((opInfo (fOP l.ctrl)).getD {}).pause))
        if !cancel && bad then d.cmdPop t c.thread 2
        else
          let ids := aff.map Seed.sidOf
          let d := aff.foldl (fun d x => d.putSeed { x with stop := if cancel then 2 else 1 }) d
          d.modTiller t (fun y => { y with cmds := { c with ids := ids, started := true } :: rest })
  | [] => d

/-- SEEDCTL_COMMAND_DONE (R203): every affected seed has left flight. DEDUCED, log entry 44. -/
def seedCmdDone (d : Dev) (t : Nat) : Dev :=
  match (d.tiller t).cmds with
  | c :: _ =>
    if c.started && !d.seeds.any (fun s => s.tiller == t && c.ids.contains s.sidOf) then d.cmdPop t c.thread 1 else d
  | [] => d

/-- CHAIN_BREAK_TIMEOUT (R81): the open chain of a thread is broken. -/
def chainBreakTimeout (d : Dev) (t k : Nat) : Dev :=
  match d.openChain t k with
  | some _ => ((d.breakChain t k).afterFlight t k).settle t k
  | none => d

/-! Gleaning. -/

/-- A chain whose pairs tiller `t` can lend (R219). -/
def lends (d : Dev) (t : Nat) (s : Seed) : Bool :=
  (pairsOf s).all (fun p => bitN (d.obj 0x4202 (t + 1)) p && !(d.heldPairs t).contains p)

/-- A seed whose strips other tillers may take (R210). -/
def gleanable (d : Dev) (s : Seed) : Bool :=
  !s.px && s.cvuOf.isNone && bitN (d.obj 0x4200 (s.tiller + 1)) 1

/-- What `t` may take from owner `o`: the first seed of its glean window, in the order of
next_strip(), that R215 admits (R211, R214). DEDUCED, log entry 36. -/
def windowFor (d : Dev) (t o : Nat) : Option (Seed × (Nat × Bool)) :=
  (d.rotation o).findSome? (fun k => (d.seedsOf o k).findSome? (fun s =>
    if d.gleanable s && ((s.links.head?).map (fun l => l.ctx.part)) == some (d.obj 0x6100 (t + 1) % 16) && d.lends t s
    then (d.runnable s).map (fun p => (s, p)) else none))

/-- The owners of quadrant `q` in ascending order, cyclically after owner `o` (R214). -/
def ownersAfter (q o : Nat) : List Nat :=
  let mine := (List.range 24).map (24 * q + ·)
  mine.filter (fun x => decide (o < x)) ++ mine.filter (fun x => decide (x ≤ o))

/-- What the arbiter of quadrant `q` can grant requester `t` (R214). DEDUCED, log entry 36. -/
def grantable (d : Dev) (t q : Nat) : Option (Seed × (Nat × Bool)) :=
  (ownersAfter q (d.tiller t).glfrom).findSome? (fun o => if o = t then none else d.windowFor t o)

/-- A tiller may have a glean request (R213). A strip reads as it starts, so the last read of its current
strip has issued unless it holds one that has not started. DEDUCED, log entry 36. -/
def mayRequest (d : Dev) (t : Nat) : Bool :=
  bitN (d.obj 0x4200 (t + 1)) 0 && d.tillerOn t && (d.nextOwn t).isNone && !d.pipeFrozen t &&
  !d.seeds.any (fun s => s.strips.any (fun r => r.tiller == t && !r.started))

/-- GLEAN_REQUEST (R213): tiller `t` sends its request, or withdraws it where a condition ended. -/
def gleanRequest (d : Dev) (t : Nat) : Dev := d.modTiller t (fun x => { x with glreq := d.mayRequest t })

/-- Quadrants a request of quadrant `c` is forwarded to, in order (R216). -/
def forwards (d : Dev) (c : Nat) : List Nat :=
  [(c + 1) % 4, (c + 2) % 4, (c + 3) % 4].filter (fun j => bitN (d.obj 0x4201 (c + 1)) j)

/-- The first arbiter that can grant `t` (R216). -/
def arbiterFor (d : Dev) (t : Nat) : Option Nat :=
  ((t / 24) :: d.forwards (t / 24)).find? (fun q => (d.grantable t q).isSome)

/-- GLEAN_GRANT of the arbiter of quadrant `q` (R214-R216): requests of its own quadrant first,
cyclically after the requester granted last. -/
def gleanGrant (d : Dev) (q : Nat) : Dev :=
  let last := d.glast.get 95 q
  let order := (List.range 96).map (fun i => (last + 1 + i) % 96)
  let want (own : Bool) (t : Nat) : Bool :=
    (d.tiller t).glreq && d.mayRequest t && decide ((t / 24 = q) = own) && d.arbiterFor t == some q
  let pick := match order.find? (want true) with
    | some t => some t
    | none => order.find? (want false)
  match pick with
  | none => d
  | some t => match d.grantable t q with
    | none => d
    | some (s, p) =>
      let d := d.putSeed (s.take p t false)
      let d := d.modTiller t (fun x => { x with glreq := false, glfrom := s.tiller })
      { d with glast := d.glast.put q t }

/-! Power. -/

/-- A strip taken by tiller `t` returns to its owner, to be handed out again before any higher one; a TALLY strip
ends its seed in FAULT with DOMAIN_OFF at its first index (R232). An abandoned one has no more to do. -/
def lostStrip (t : Nat) (s : Seed) (r : Strip) : Seed :=
  if r.abandoned then s
  else if s.lastOp = 0x51 then
    let s := s.report (s.links.length - 1) ⟨r.lo, r.lo, r.lo, 0x22, 0, 0, 0, t⟩
    { s with done1 := r.k :: s.done1 }
  else { s with back := s.back.filter (fun p => decide (p.1 < r.k)) ++ (r.k, r.pass2) :: s.back.filter (fun p => decide (r.k ≤ p.1)) }

/-- Strips that tiller `t` has taken for other owners return to them (R232), and are counted (R235). -/
def returnStrips (d : Dev) (t : Nat) : Dev :=
  d.seeds.foldl (fun d s =>
    let mine := s.strips.filter (fun r => r.tiller == t)
    if s.tiller = t || mine.isEmpty then d
    else
      let d := d.putSeed (mine.foldl (lostStrip t) { s with strips := s.strips.filter (fun r => r.tiller != t) })
      d.bumpBy 0x4215 (s.tiller + 1) (mine.filter (fun r => !r.abandoned && s.lastOp != 0x51)).length max64) d

/-- The seeds of tiller `t` end without write-back (R87), and its gleaned strips return. No strip of those seeds
writes any more, and the hoppers that gleaners held for them are released (R219). DESIGN CHOICE, log entry 158. -/
def endTillerSeeds (d : Dev) (t : Nat) : Dev :=
  let d := (d.landQueued (fun s => s.tiller == t)).returnStrips t
  let mine := d.seeds.filter (fun s => s.tiller == t)
  let d := mine.foldl (fun d s => match s.cvuOf with
    | some u => d.cvuRelease u (.seed s.sidOf)
    | none => d) d
  let d := { d with seeds := d.seeds.filter (fun s => s.tiller != t) }
  (mine.flatMap (fun s => s.strips.map Strip.tiller)).foldl (fun d r => if r = t then d else d.wakeHoppers r) d

end Dev
end Sys2Proof.Machine
end

