-- ==== Sys2Proof/Machine/Flags.lean ====
section
/-! DEFINITION. The flags of a thread's arithmetic (R180, R182-R185): each operation as a result
with the flags it sets. -/

namespace Sys2Proof.Machine

namespace Thread

/-- Z and N from a 32-bit result (R180). -/
def setZN (x : Thread) (r : W32) : Thread := { x with z := r == 0, n := r.getLsbD 31 }
/-- Z and N from a 64-bit result (R180). -/
def setZN64 (x : Thread) (r : W64) : Thread := { x with z := r == 0, n := r.getLsbD 63 }

/-- The condition of code `c` (R181); code 15 is ILLEGAL before it is asked. -/
def holds (x : Thread) (c : Nat) : Bool :=
  match c with
  | 0 => x.z
  | 1 => !x.z
  | 2 => x.c
  | 3 => !x.c
  | 4 => x.n
  | 5 => !x.n
  | 6 => x.v
  | 7 => !x.v
  | 8 => x.c && !x.z
  | 9 => !x.c || x.z
  | 10 => x.n == x.v
  | 11 => x.n != x.v
  | 12 => !x.z && x.n == x.v
  | 13 => x.z || x.n != x.v
  | _ => true

end Thread

/-- A result with its carry and overflow. -/
structure CV where
  r : W32
  c : Bool
  v : Bool
  deriving DecidableEq, Repr

/-- a + b + cin (R180). -/
def addCV (a b : W32) (cin : Bool) : CV :=
  let r : W32 := a + b + BitVec.ofNat 32 (b2n cin)
  ⟨r, decide (2 ^ 32 ≤ a.toNat + b.toNat + b2n cin), a.getLsbD 31 == b.getLsbD 31 && r.getLsbD 31 != a.getLsbD 31⟩

/-- a - b - bin: C is 1 when no borrow occurs (R180). -/
def subCV (a b : W32) (bin : Bool) : CV :=
  let r : W32 := a - b - BitVec.ofNat 32 (b2n bin)
  ⟨r, decide (b.toNat + b2n bin ≤ a.toNat), a.getLsbD 31 != b.getLsbD 31 && r.getLsbD 31 != a.getLsbD 31⟩

/-- Shifts and rotates by a count of 0 to 31 (R182, R183): the result and the carry, if it changes. -/
inductive Shift where
  | shl | shr | sar | rol
  deriving DecidableEq, Repr

def Shift.run (o : Shift) (a : W32) (n : Nat) : W32 × Option Bool :=
  if n = 0 then (a, none)
  else match o with
    | .shl => (a <<< n, some (a.getLsbD (32 - n)))
    | .shr => (a >>> n, some (a.getLsbD (n - 1)))
    | .sar => (a.sshiftRight n, some (a.getLsbD (n - 1)))
    | .rol => let r := a.rotateLeft n; (r, some (r.getLsbD 0))

/-- Quotient, remainder and V of DIV (`signed`) and DIVU (R185). -/
def divide (signed : Bool) (a b : W32) : W32 × W32 × Bool :=
  if b = 0 then (0, a, true)
  else if signed then
    if a = 0x80000000 ∧ b = 0xFFFFFFFF then (0x80000000, 0, true)
    else (a.sdiv b, a.srem b, false)
  else (a / b, a % b, false)

/-- The 64-bit product of MULW (`signed`) and MULWU (R184). -/
def product (signed : Bool) (a b : W32) : W64 :=
  if signed then a.signExtend 64 * b.signExtend 64 else a.setWidth 64 * b.setWidth 64

/-- BREV, PAR (R182). -/
def reverse32 (a : W32) : W32 := a.reverse
def parity32 (a : W32) : W32 := BitVec.ofNat 32 (popcount 32 a.toNat % 2)

end Sys2Proof.Machine
end

