-- ==== Sys2Proof/Machine/Operands.lean ====
section
/-! DEFINITION. Operand forms of the sequencer: the EXT immediate and the addresses of memory
instructions (R177, R188). -/

namespace Sys2Proof.Machine

/-- The immediate of R177: the EXT fields, first word most significant, then the instruction's own
field `own` of `w` bits; sign-extended from the top bit, low 32 bits kept. -/
def immOf (ext : List (BitVec 10)) (w own : Nat) : W32 :=
  let s := ext.foldl (fun a e => a * 1024 + e.toNat) 0 * 2 ^ w + own
  let n := 10 * ext.length + w
  if n = 0 then 0 else BitVec.ofInt 32 (sx n s)

/-- Local store offset of LD, ST, LDH and STH (R188, R189). -/
def lsAddr (x : Thread) (b : Nat) (imm : W32) : Nat := ((x.rd b).toNat + imm.toNat) % 2 ^ 16

/-- Virtual address of LDX, STX, SOW and TOW (R188): `none` raises VA_RANGE. -/
def vaOf (x : Thread) (b : Nat) (imm : W32) : Option Nat :=
  let base := x.rdPair b
  let s : Int := (base.toNat : Int) + imm.toInt
  if base.toNat / 2 ^ 48 ≠ 0 then none
  else if s < 0 then none
  else if (2 : Int) ^ 48 ≤ s then none
  else some s.toNat

/-- The address VA_RANGE reports: the low 48 bits of the sum. -/
def vaLow (x : Thread) (b : Nat) (imm : W32) : Nat :=
  wrapI 48 (((x.rdPair b).toNat : Int) + imm.toInt)

end Sys2Proof.Machine
end

