-- ==== Sys2Proof/Machine/SeqWord.lean ====
section
/-! DEFINITION. The 14-bit instruction words of a tiller thread (R172-R176): the instructions with
their operand fields, their decoder and their encoder. -/

namespace Sys2Proof.Machine

/-- An instruction word, field by field (R172, R175). -/
inductive SeqOp where
  | mov (a b : BitVec 5)
  | add (a b : BitVec 5)
  | sub (a b : BitVec 5)
  | cmp (a b : BitVec 5)
  | addi (a imm : BitVec 5)
  | movi (a imm : BitVec 5)
  | bcc (cond : BitVec 4) (off : BitVec 5)
  | dbnz (a : BitVec 4) (off : BitVec 5)
  | not (a : BitVec 5)
  | neg (a : BitVec 5)
  | par (a : BitVec 5)
  | brev (a : BitVec 5)
  | sext8 (a : BitVec 5)
  | sext16 (a : BitVec 5)
  | zext8 (a : BitVec 5)
  | zext16 (a : BitVec 5)
  | crc8 (a : BitVec 5)
  | crcw (a : BitVec 5)
  | crcb (a : BitVec 5)
  | wait (a : BitVec 5)
  | claim (a : BitVec 5)
  | jr (a : BitVec 5)
  | callr (a : BitVec 5)
  | svc (a : BitVec 5)
  | rte (a : BitVec 5)
  | psync (a : BitVec 5)
  | fence (a : BitVec 5)
  | mfs (a : BitVec 4) (s : BitVec 5)
  | mts (a : BitVec 4) (s : BitVec 5)
  | and (a : BitVec 4) (b : BitVec 3)
  | or (a : BitVec 4) (b : BitVec 3)
  | xor (a : BitVec 4) (b : BitVec 3)
  | andn (a : BitVec 4) (b : BitVec 3)
  | adc (a : BitVec 4) (b : BitVec 3)
  | sbc (a : BitVec 4) (b : BitVec 3)
  | mulw (a : BitVec 4) (b : BitVec 3)
  | mulwu (a : BitVec 4) (b : BitVec 3)
  | shl (a : BitVec 4) (b : BitVec 3)
  | shr (a : BitVec 4) (b : BitVec 3)
  | sar (a : BitVec 4) (b : BitVec 3)
  | rol (a : BitVec 4) (b : BitVec 3)
  | div (a : BitVec 4) (b : BitVec 3)
  | divu (a : BitVec 4) (b : BitVec 3)
  | ld (size : BitVec 2) (a : BitVec 4) (b : BitVec 3)
  | st (size : BitVec 2) (a : BitVec 4) (b : BitVec 3)
  | ldx (size : BitVec 2) (a : BitVec 4) (b : BitVec 3)
  | stx (size : BitVec 2) (a : BitVec 4) (b : BitVec 3)
  | sow (a : BitVec 4) (b : BitVec 3)
  | tow (a : BitVec 4) (b : BitVec 3)
  | ldh (a : BitVec 4) (b : BitVec 3)
  | sth (a : BitVec 4) (b : BitVec 3)
  | ldhw (a : BitVec 4) (b : BitVec 3)
  | sthw (a : BitVec 4) (b : BitVec 3)
  | pmw (a : BitVec 4) (b : BitVec 3)
  | jmp (off : BitVec 9)
  | call (off : BitVec 9)
  | ext (k : BitVec 10)
  deriving DecidableEq, Repr

/-- Fields of a word (R172). -/
def wMajor (w : BitVec 14) : Nat := (w.extractLsb' 10 4).toNat
def wA (w : BitVec 14) : BitVec 5 := w.extractLsb' 5 5
def wB (w : BitVec 14) : BitVec 5 := w.extractLsb' 0 5
def nFn (w : BitVec 14) : BitVec 3 := w.extractLsb' 7 3
def nA (w : BitVec 14) : BitVec 4 := w.extractLsb' 3 4
def nB (w : BitVec 14) : BitVec 3 := w.extractLsb' 0 3

/-- The unary and system group, major 0x7, by function code. -/
def decodeSys (a : BitVec 5) (fn : Nat) : Option SeqOp :=
  match fn with
  | 0x00 => some (.not a)
  | 0x01 => some (.neg a)
  | 0x02 => some (.par a)
  | 0x03 => some (.brev a)
  | 0x04 => some (.sext8 a)
  | 0x05 => some (.sext16 a)
  | 0x06 => some (.zext8 a)
  | 0x07 => some (.zext16 a)
  | 0x08 => some (.crc8 a)
  | 0x09 => some (.crcw a)
  | 0x0A => some (.crcb a)
  | 0x0C => some (.wait a)
  | 0x10 => some (.claim a)
  | 0x11 => some (.jr a)
  | 0x12 => some (.callr a)
  | 0x14 => some (.svc a)
  | 0x15 => some (.rte a)
  | 0x16 => some (.psync a)
  | 0x17 => some (.fence a)
  | _ => none

/-- Majors 0x9, 0xA and 0xD by function code. -/
def decodeLogic (fn : Nat) (a : BitVec 4) (b : BitVec 3) : Option SeqOp :=
  match fn with
  | 0 => some (.and a b)
  | 1 => some (.or a b)
  | 2 => some (.xor a b)
  | 3 => some (.andn a b)
  | 4 => some (.adc a b)
  | 5 => some (.sbc a b)
  | 6 => some (.mulw a b)
  | _ => some (.mulwu a b)
def decodeShift (fn : Nat) (a : BitVec 4) (b : BitVec 3) : Option SeqOp :=
  match fn with
  | 0 => some (.shl a b)
  | 1 => some (.shr a b)
  | 2 => some (.sar a b)
  | 3 => some (.rol a b)
  | 4 => some (.div a b)
  | 5 => some (.divu a b)
  | _ => none
def decodeSeed (fn : Nat) (a : BitVec 4) (b : BitVec 3) : Option SeqOp :=
  match fn with
  | 0 => some (.sow a b)
  | 1 => some (.tow a b)
  | 2 => some (.ldh a b)
  | 3 => some (.sth a b)
  | 4 => some (.ldhw a b)
  | 5 => some (.sthw a b)
  | 6 => some (.pmw a b)
  | _ => none

/-- The instruction a word holds; `none` is ILLEGAL by an unassigned code (R175, R176). -/
def decodeSeq (w : BitVec 14) : Option SeqOp :=
  match wMajor w with
  | 0x0 => some (.mov (wA w) (wB w))
  | 0x1 => some (.add (wA w) (wB w))
  | 0x2 => some (.sub (wA w) (wB w))
  | 0x3 => some (.cmp (wA w) (wB w))
  | 0x4 => some (.addi (wA w) (wB w))
  | 0x5 => some (.movi (wA w) (wB w))
  | 0x6 => if (wA w).getLsbD 4 then some (.dbnz ((wA w).extractLsb' 0 4) (wB w))
           else some (.bcc ((wA w).extractLsb' 0 4) (wB w))
  | 0x7 => decodeSys (wA w) (wB w).toNat
  | 0x8 => if (wA w).getLsbD 4 then some (.mts ((wA w).extractLsb' 0 4) (wB w))
           else some (.mfs ((wA w).extractLsb' 0 4) (wB w))
  | 0x9 => decodeLogic (nFn w).toNat (nA w) (nB w)
  | 0xA => decodeShift (nFn w).toNat (nA w) (nB w)
  | 0xB => if (nFn w).getLsbD 2 then some (.st ((nFn w).extractLsb' 0 2) (nA w) (nB w))
           else some (.ld ((nFn w).extractLsb' 0 2) (nA w) (nB w))
  | 0xC => if (nFn w).getLsbD 2 then some (.stx ((nFn w).extractLsb' 0 2) (nA w) (nB w))
           else some (.ldx ((nFn w).extractLsb' 0 2) (nA w) (nB w))
  | 0xD => decodeSeed (nFn w).toNat (nA w) (nB w)
  | 0xE => if (w.extractLsb' 9 1) = 1 then some (.call (w.extractLsb' 0 9)) else some (.jmp (w.extractLsb' 0 9))
  | _ => some (.ext (w.extractLsb' 0 10))

/-- Words of the three formats (R172). -/
def wordW (m : BitVec 4) (a b : BitVec 5) : BitVec 14 := m ++ a ++ b
def wordN (m : BitVec 4) (fn : BitVec 3) (a : BitVec 4) (b : BitVec 3) : BitVec 14 := m ++ fn ++ a ++ b
def wordL (m : BitVec 4) (k : BitVec 10) : BitVec 14 := m ++ k

/-- The word of an instruction (R172, R175). -/
def encodeSeq : SeqOp → BitVec 14
  | .mov a b => wordW 0x0 a b
  | .add a b => wordW 0x1 a b
  | .sub a b => wordW 0x2 a b
  | .cmp a b => wordW 0x3 a b
  | .addi a i => wordW 0x4 a i
  | .movi a i => wordW 0x5 a i
  | .bcc c o => wordW 0x6 ((0 : BitVec 1) ++ c) o
  | .dbnz a o => wordW 0x6 ((1 : BitVec 1) ++ a) o
  | .not a => wordW 0x7 a 0x00
  | .neg a => wordW 0x7 a 0x01
  | .par a => wordW 0x7 a 0x02
  | .brev a => wordW 0x7 a 0x03
  | .sext8 a => wordW 0x7 a 0x04
  | .sext16 a => wordW 0x7 a 0x05
  | .zext8 a => wordW 0x7 a 0x06
  | .zext16 a => wordW 0x7 a 0x07
  | .crc8 a => wordW 0x7 a 0x08
  | .crcw a => wordW 0x7 a 0x09
  | .crcb a => wordW 0x7 a 0x0A
  | .wait a => wordW 0x7 a 0x0C
  | .claim a => wordW 0x7 a 0x10
  | .jr a => wordW 0x7 a 0x11
  | .callr a => wordW 0x7 a 0x12
  | .svc a => wordW 0x7 a 0x14
  | .rte a => wordW 0x7 a 0x15
  | .psync a => wordW 0x7 a 0x16
  | .fence a => wordW 0x7 a 0x17
  | .mfs a s => wordW 0x8 ((0 : BitVec 1) ++ a) s
  | .mts a s => wordW 0x8 ((1 : BitVec 1) ++ a) s
  | .and a b => wordN 0x9 0 a b
  | .or a b => wordN 0x9 1 a b
  | .xor a b => wordN 0x9 2 a b
  | .andn a b => wordN 0x9 3 a b
  | .adc a b => wordN 0x9 4 a b
  | .sbc a b => wordN 0x9 5 a b
  | .mulw a b => wordN 0x9 6 a b
  | .mulwu a b => wordN 0x9 7 a b
  | .shl a b => wordN 0xA 0 a b
  | .shr a b => wordN 0xA 1 a b
  | .sar a b => wordN 0xA 2 a b
  | .rol a b => wordN 0xA 3 a b
  | .div a b => wordN 0xA 4 a b
  | .divu a b => wordN 0xA 5 a b
  | .ld s a b => wordN 0xB ((0 : BitVec 1) ++ s) a b
  | .st s a b => wordN 0xB ((1 : BitVec 1) ++ s) a b
  | .ldx s a b => wordN 0xC ((0 : BitVec 1) ++ s) a b
  | .stx s a b => wordN 0xC ((1 : BitVec 1) ++ s) a b
  | .sow a b => wordN 0xD 0 a b
  | .tow a b => wordN 0xD 1 a b
  | .ldh a b => wordN 0xD 2 a b
  | .sth a b => wordN 0xD 3 a b
  | .ldhw a b => wordN 0xD 4 a b
  | .sthw a b => wordN 0xD 5 a b
  | .pmw a b => wordN 0xD 6 a b
  | .jmp o => wordL 0xE ((0 : BitVec 1) ++ o)
  | .call o => wordL 0xE ((1 : BitVec 1) ++ o)
  | .ext k => wordL 0xF k

/-- Instructions that an EXT word may precede (R177, R178). -/
def SeqOp.takesExt : SeqOp → Bool
  | .addi .. | .movi .. | .bcc .. | .dbnz .. | .jmp .. | .call .. | .ld .. | .st .. | .ldx .. | .stx ..
  | .sow .. | .tow .. | .ldh .. | .sth .. => true
  | _ => false

/-- Instructions that TD_FEED does not execute (R559). -/
def SeqOp.noFeed : SeqOp → Bool
  | .bcc .. | .dbnz .. | .jmp .. | .call .. | .jr .. | .callr .. | .svc .. | .rte .. | .wait .. => true
  | _ => false

end Sys2Proof.Machine
end

