-- ==== Sys2Proof/Machine/Seq.lean ====
section
/-! DEFINITION. What each sequencer instruction does once it has issued (R182-R206), and the issue
itself: fetch, parity, breakpoints, EXT words (R147, R148, R176-R179). -/

namespace Sys2Proof.Machine
namespace Dev

/-- The precise exceptions an instruction raises on itself; the saved address is the first word of
its EXT group (R179). -/
def seqExc (d : Dev) (t k vec info : Nat) (va : Option Nat) : Dev :=
  d.raiseExc t k vec info va (d.thread t k).ipc
def illegal (d : Dev) (t k : Nat) : Dev := d.seqExc t k 0x00 0 none
def privExc (d : Dev) (t k : Nat) : Dev := d.seqExc t k 0x01 0 none
/-- DEDUCED, log entry 40. -/
def alignExc (d : Dev) (t k va : Nat) : Dev := d.seqExc t k 0x02 0 (some va)

/-! Arithmetic and logic (R182-R185). -/

def opMov (d : Dev) (t k a b : Nat) : Dev := d.modThread t k (fun x => x.wr a (x.rd b))

/-- ADD, ADDI, ADC with the second operand `y` and carry in. -/
def opAdd (d : Dev) (t k a : Nat) (y : Thread → W32) (cin : Thread → Bool) : Dev :=
  d.modThread t k (fun x =>
    let q := addCV (x.rd a) (y x) (cin x)
    { (x.wr a q.r).setZN q.r with c := q.c, v := q.v })

/-- SUB, CMP (`keep` false), SBC, NEG: `y` from `z`. -/
def opSub (d : Dev) (t k a : Nat) (keep : Bool) (z y : Thread → W32) (bin : Thread → Bool) : Dev :=
  d.modThread t k (fun x =>
    let q := subCV (z x) (y x) (bin x)
    let x' := if keep then x.wr a q.r else x
    { x'.setZN q.r with c := q.c, v := q.v })

/-- AND, OR, XOR, ANDN, NOT, BREV: Z and N. -/
def opLogic (d : Dev) (t k a : Nat) (f : Thread → W32) : Dev :=
  d.modThread t k (fun x => (x.wr a (f x)).setZN (f x))

/-- MOVI, SEXT, ZEXT: no flag. -/
def opSet (d : Dev) (t k a : Nat) (f : Thread → W32) : Dev := d.modThread t k (fun x => x.wr a (f x))

/-- PAR sets Z only. -/
def opPar (d : Dev) (t k a : Nat) : Dev :=
  d.modThread t k (fun x => let r := parity32 (x.rd a); { x.wr a r with z := r == 0 })

/-- SHL, SHR, SAR, ROL by g_b[4:0] (R183). -/
def opShift (d : Dev) (t k a b : Nat) (o : Shift) : Dev :=
  d.modThread t k (fun x =>
    let q := o.run (x.rd a) ((x.rd b).toNat % 32)
    let y := (x.wr a q.1).setZN q.1
    match q.2 with
    | some c => { y with c := c }
    | none => y)

/-- MULW, MULWU (R184). -/
def opMul (d : Dev) (t k a b : Nat) (signed : Bool) : Dev :=
  d.modThread t k (fun x =>
    let p := product signed (x.rd (2 * a)) (x.rd b)
    (x.wrPair a p).setZN64 p)

/-- DIV, DIVU (R185). -/
def opDiv (d : Dev) (t k a b : Nat) (signed : Bool) : Dev :=
  d.modThread t k (fun x =>
    let q := divide signed (x.rd (2 * a)) (x.rd b)
    let y := (x.wr (2 * a) q.1).wr (2 * a + 1) q.2.1
    { y.setZN q.1 with v := q.2.2 })

/-! Local store, hoppers and program memory (R149, R150, R187-R189). -/

/-- LD (R149, R150, R187). DEDUCED, log entry 40. -/
def opLd (d : Dev) (t k size a b : Nat) (imm : W32) : Dev :=
  let x := d.thread t k
  let ad := lsAddr x b imm
  let n := 2 ^ size
  if ad % n ≠ 0 then d.alignExc t k ad
  else match d.lsRead t ad n with
    | (d, none) => d.seqExc t k 0x07 0 none
    | (d, some bs) =>
      d.modThread t k (fun x => if size = 3 then x.wrPair a (BitVec.ofNat 64 (ofLE bs)) else x.wr a (BitVec.ofNat 32 (ofLE bs)))

/-- The bytes a store of 2^size bytes takes from register a or pair d_a. -/
def storeData (x : Thread) (size a : Nat) : List W8 :=
  if size = 3 then toLE 8 (x.rdPair a).toNat else toLE (2 ^ size) (x.rd a).toNat

/-- ST (R149, R150). DEDUCED, log entry 40. -/
def opSt (d : Dev) (t k size a b : Nat) (imm : W32) : Dev :=
  let x := d.thread t k
  let ad := lsAddr x b imm
  if ad % 2 ^ size ≠ 0 then d.alignExc t k ad
  else match d.lsWrite t ad (storeData x size a) with
    | (d, true) => d
    | (d, false) => d.seqExc t k 0x07 0 none

/-- A hopper's bytes, and a hopper with bytes written at offset `o`. -/
def hopBytes (d : Dev) (t h o n : Nat) : List W8 :=
  (List.range n).map (fun i => (d.tiller t).hop.get 0 (64 * h + o + i))
def hopPut (d : Dev) (t h o : Nat) (bs : List W8) : Dev :=
  d.modTiller t (fun x => { x with hop := bs.zipIdx.foldl (fun m (p : W8 × Nat) => m.put (64 * h + o + p.2) p.1) x.hop })

/-- LDH (R189). DEDUCED, log entries 40 and 42. -/
def opLdh (d : Dev) (t k a b : Nat) (imm : W32) : Dev :=
  let ad := lsAddr (d.thread t k) b imm
  if d.hopperHeld t a then d.parkAs t k (.hopper a)
  else if ad % 64 ≠ 0 then d.alignExc t k ad
  else match d.lsRead t ad 64 with
    | (d, none) => d.seqExc t k 0x07 0 none
    | (d, some bs) => d.hopPut t a 0 bs

/-- STH (R189): every granule is written whole. DEDUCED, log entry 42. -/
def opSth (d : Dev) (t k a b : Nat) (imm : W32) : Dev :=
  let ad := lsAddr (d.thread t k) b imm
  if d.hopperHeld t a then d.parkAs t k (.hopper a)
  else if ad % 64 ≠ 0 then d.alignExc t k ad
  else (d.lsWrite t ad (d.hopBytes t a 0 64)).1

/-- LDHW (R189). -/
def opLdhw (d : Dev) (t k a b : Nat) : Dev :=
  let v := ((d.thread t k).rd b).toNat
  let h := fld v 7 4
  if d.hopperHeld t h then d.parkAs t k (.hopper h)
  else
    let w := BitVec.ofNat 32 (ofLE (d.hopBytes t h (4 * fld v 3 0) 4))
    d.modThread t k (fun x => x.wr a w)

/-- STHW (R189). -/
def opSthw (d : Dev) (t k a b : Nat) : Dev :=
  let x := d.thread t k
  let v := (x.rd b).toNat
  let h := fld v 7 4
  if d.hopperHeld t h then d.parkAs t k (.hopper h)
  else d.hopPut t h (4 * fld v 3 0) (toLE 4 (x.rd a).toNat)

/-- PMW (R189, R197). -/
def opPmw (d : Dev) (t k a b : Nat) : Dev :=
  let x := d.thread t k
  if !x.priv then d.privExc t k
  else d.pmWrite t ((x.rd b).toNat % 2 ^ 14) ((x.rd a).setWidth 14)

/-! Remote access (R152-R155, R188). -/

/-- An STX that has its physical address takes a store buffer entry, or parks (R154). -/
def stxEnter (d : Dev) (t k : Nat) (op : MemOp) : Dev :=
  let x := d.thread t k
  if 16 ≤ x.sb.length then d.parkAs t k (.stxFull op)
  else
    let e : SbEntry := { pa := op.pa, size := op.size, data := op.data, priv := x.priv, stale := op.stale }
    d.setThread t k { x with sb := x.sb ++ [e] }

/-- LDX and STX (R152, R153, R188): the address is checked and translated as the instruction issues. -/
def opRemote (d : Dev) (t k : Nat) (load : Bool) (size a b : Nat) (imm : W32) : Dev :=
  let x := d.thread t k
  let n := 2 ^ size
  match vaOf x b imm with
  | none => d.seqExc t k 0x03 0 (some (vaLow x b imm))
  | some va =>
    if va % n ≠ 0 then d.alignExc t k va
    else
      let op : MemOp := { load := load, reg := a, size := n, va := va, data := if load then 0 else ofLE (storeData x size a) }
      match d.lookup (tillerPath t) ⟨if load then .read else .write, d.ctxOf t k, va⟩ with
      | (d, .fault s) => d.seqExc t k 0x04 s (some va)
      | (d, .miss) => (d.parkAs t k (.walk op)).walkFrom t k
      | (d, .pa pa) => if load then d.parkAs t k (.ldx { op with pa := pa }) else d.stxEnter t k { op with pa := pa }

/-- SOW and TOW (R190). -/
def opSow (d : Dev) (t k : Nat) (towed : Bool) (a b : Nat) (imm : W32) : Dev :=
  let x := d.thread t k
  match vaOf x b imm with
  | none => d.seqExc t k 0x03 0 (some (vaLow x b imm))
  | some va => d.sowStart t k towed a va

/-- WAIT (R140): an open chain is broken (R81). -/
def opWait (d : Dev) (t k a : Nat) : Dev :=
  let d := d.breakChain t k
  let op := ((d.thread t k).rd a).toNat % 2 ^ 16
  if d.waitDone t k op then d
  else d.modThread t k (fun x => { x with st := .waiting, park := .wait op })

/-! Check instructions (R191-R194). -/

/-- Width of CRCCFG (R204). -/
def crcWidth (x : Thread) : Nat :=
  match x.crccfg.toNat % 4 with
  | 0 => 32
  | 1 => 16
  | _ => 8

def crcStep (x : Thread) (bs : List W8) : Thread :=
  { x with crcv := BitVec.ofNat 32 (crcBytes (x.crccfg.getLsbD 2) (crcWidth x) x.crcp.toNat x.crcv.toNat bs) }

/-- CRC8 and CRCW: the low `n` bytes of g_a, lowest first (R192). -/
def opCrc (d : Dev) (t k a n : Nat) : Dev := d.modThread t k (fun x => crcStep x (toLE n (x.rd a).toNat))

/-- Feeds `left` bytes from `off`, granule part by granule part; `cut` chunks may be fed before an
event or stop is due, and then the run ends at the next multiple of 64 (R193, R194). Answers the
offset and count reached, and whether an uncorrectable granule ended the run. DESIGN CHOICE, log entry 39. -/
def crcRun (d : Dev) (t k : Nat) (cut : Option Nat) : Nat → Nat → Nat → Nat → Dev × Nat × Nat × Bool
  | 0, off, left, _ => (d, off, left, false)
  | fuel + 1, off, left, chunks =>
    let due := match cut with
      | some c => decide (c ≤ chunks) && off % 64 == 0
      | none => false
    if left = 0 || due then (d, off, left, false)
    else
      let n := min left (8 - off % 8)
      match d.lsRead t off n with
      | (d, none) => (d, off, left, true)
      | (d, some bs) =>
        let d := d.modThread t k (fun x => crcStep x bs)
        let off' := (off + n) % 2 ^ 16
        let ends := off' % 16 == 0 || left == n
        crcRun d t k cut fuel off' (left - n) (if ends then chunks + 1 else chunks)

/-- CRCB (R193, R194): `cut`, if any, is the number of chunks fed when an event became deliverable
or a stop was requested. -/
def opCrcb (d : Dev) (t k a : Nat) (cut : Option Nat) : Dev :=
  let x := d.thread t k
  if a % 2 ≠ 0 then d.illegal t k
  else
    let off := (x.rd a).toNat % 2 ^ 16
    let cnt := (x.rd (a + 1)).toNat
    if cnt = 0 then d
    else if 65536 < cnt then d.setThread t k { x with v := true }
    else
      let d := d.setThread t k { x with v := false }
      let (d, off', left, bad) := d.crcRun t k cut 16386 off cnt 0
      let d := d.modThread t k (fun x =>
        (x.wr a (BitVec.ofNat 32 (putFld (x.rd a).toNat 15 0 off'))).wr (a + 1) (BitVec.ofNat 32 left))
      if bad then d.seqExc t k 0x07 0 none
      else if left ≠ 0 then d.modThread t k (fun x => { x with pc := x.ipc, pf := [] })
      else d

/-! Control transfer (R195). -/

/-- A taken branch: the prefetch buffer is discarded and the trace may take a record. DEDUCED, log entry 38. -/
def jumpTo (d : Dev) (t k : Nat) (target : BitVec 14) : Dev :=
  let d := d.traceRec t k 0 ((d.thread t k).pc - 1) target
  d.modThread t k (fun x => { x with pc := target, pf := [] })

def opBcc (d : Dev) (t k cond : Nat) (imm : W32) : Dev :=
  let x := d.thread t k
  if cond = 15 then d.illegal t k
  else if x.holds cond then d.jumpTo t k (x.pc - 1 + imm.setWidth 14) else d

def opDbnz (d : Dev) (t k a : Nat) (imm : W32) : Dev :=
  let d := d.modThread t k (fun x => x.wr (16 + a) (x.rd (16 + a) - 1))
  let x := d.thread t k
  if x.rd (16 + a) ≠ 0 then d.jumpTo t k (x.pc - 1 + imm.setWidth 14) else d

def opJmp (d : Dev) (t k : Nat) (imm : W32) : Dev := d.jumpTo t k ((d.thread t k).pc - 1 + imm.setWidth 14)
/-- CALL: the link is the branch address plus 1, which is the pc after issue. -/
def opCall (d : Dev) (t k : Nat) (imm : W32) : Dev :=
  let x := d.thread t k
  (d.setThread t k (x.wr 31 (x.pc.setWidth 32))).jumpTo t k (x.pc - 1 + imm.setWidth 14)
def opJr (d : Dev) (t k a : Nat) : Dev := d.jumpTo t k (((d.thread t k).rd a).setWidth 14)
def opCallr (d : Dev) (t k a : Nat) : Dev :=
  let x := d.thread t k
  (d.setThread t k (x.wr 31 (x.pc.setWidth 32))).jumpTo t k ((x.rd a).setWidth 14)

/-! System instructions (R196-R206). -/

/-- SVC: the saved address is the next word. -/
def opSvc (d : Dev) (t k a : Nat) : Dev := d.raiseExc t k (0x20 + a) a none (d.thread t k).pc

def opRte (d : Dev) (t k a : Nat) : Dev :=
  if a ≠ 0 then d.illegal t k
  else if !(d.thread t k).priv then d.privExc t k
  else match d.rte t k with
    | (d, none) => d
    | (d, some (vec, info)) => d.seqExc t k vec info none

/-- DEDUCED, log entry 38. -/
def opPsync (d : Dev) (t k a : Nat) : Dev :=
  if a ≠ 0 then d.illegal t k else d.modThread t k (fun x => { x with pf := [] })

def opFence (d : Dev) (t k a : Nat) : Dev :=
  if a ≠ 0 then d.illegal t k
  else if (d.thread t k).sb.isEmpty then d else d.parkAs t k .fence

def opClaim (d : Dev) (t k a : Nat) : Dev := d.parkAs t k (.claim a)

/-- Special register numbers that are reserved, and those that are S-only (R199). -/
def sReserved (s : Nat) : Bool := s == 15 || decide (26 ≤ s)
def sPriv (s : Nat) : Bool := (decide (1 ≤ s) && decide (s ≤ 7)) || s == 12 || (decide (18 ≤ s) && decide (s ≤ 25))

/-- fc from the tiller's slot epoch (R206). -/
def cyc (d : Dev) (t : Nat) : Nat := (d.fc - (d.tiller t).epoch + (d.tiller t).cycAdd) % 2 ^ 64

/-- A special register as it reads (R199, R206). -/
def sRead (d : Dev) (t k s : Nat) : W32 :=
  let x := d.thread t k
  match s with
  | 0 => x.status
  | 1 => x.epc
  | 2 => x.estat
  | 3 => x.ecause
  | 4 => x.evaLo
  | 5 => x.evaHi
  | 6 => x.epriv
  | 7 => x.htbase
  | 8 => x.crcp
  | 9 => x.crcv
  | 10 => x.crccfg
  | 11 => x.amode
  | 12 => x.seedctl
  | 13 => x.seedfc
  | 14 => x.stripdef
  | 16 => BitVec.ofNat 32 (d.cyc t)
  | 17 => x.cycHi
  | 18 => x.fepc
  | 19 => x.festat
  | 20 => x.fecause
  | 21 => x.fepriv
  | 22 => x.xctx0
  | 23 => x.xctx1
  | 24 => x.evcfg
  | 25 => d.evstat t k
  | _ => 0

/-- MFS (R199): a read of CYC_LO latches CYC_HI (R206). -/
def opMfs (d : Dev) (t k a s : Nat) : Dev :=
  let x := d.thread t k
  if sReserved s then d.illegal t k
  else if sPriv s && !x.priv then d.privExc t k
  else
    let v := d.sRead t k s
    let x := if s = 16 then { x with cycHi := BitVec.ofNat 32 (d.cyc t / 2 ^ 32) } else x
    d.setThread t k (x.wr a v)

/-- Fields of STRIPDEF and CRCCFG keep their value where a reserved encoding is written (R16, R204). -/
def wrStripdef (old v : W32) : W32 :=
  let e := v.toNat % 16
  if 5 ≤ e && e ≤ 0xD then old else BitVec.ofNat 32 e
def wrCrccfg (old v : W32) : W32 :=
  let w := if v.toNat % 4 = 3 then old.toNat % 4 else v.toNat % 4
  BitVec.ofNat 32 (v.toNat / 4 % 2 * 4 + w)

/-- A write of the writable fields of a special register other than SEEDCTL (R200). -/
def sWrite (x : Thread) (s : Nat) (v : W32) : Thread :=
  match s with
  | 0 => { x with c := v.getLsbD 3, z := v.getLsbD 2, n := v.getLsbD 1, v := v.getLsbD 0, ct := v.getLsbD 11,
                  sua := if x.priv then v.getLsbD 12 else x.sua }
  | 1 => { x with epc := v &&& 0x3FFF }
  | 2 => { x with estat := v }
  | 7 => { x with htbase := v &&& 0xFC00 }
  | 8 => { x with crcp := v }
  | 9 => { x with crcv := v }
  | 10 => { x with crccfg := wrCrccfg x.crccfg v }
  | 11 => { x with amode := v &&& 0x1FE7 }
  | 14 => { x with stripdef := wrStripdef x.stripdef v }
  | 18 => { x with fepc := v &&& 0x3FFF }
  | 19 => { x with festat := v }
  | 22 => { x with xctx0 := v }
  | 23 => { x with xctx1 := v &&& 0x8FFF0003 }
  | 24 => { x with evcfg := v &&& 0x1F }
  | _ => x

/-- MTS (R199, R200, R203). -/
def opMts (d : Dev) (t k a s : Nat) : Dev :=
  let x := d.thread t k
  if sReserved s then d.illegal t k
  else if sPriv s && !x.priv then d.privExc t k
  else if s = 12 then d.seedctlWrite t k (x.rd a)
  else d.setThread t k (sWrite x s (x.rd a))

/-! Issue. -/

/-- The container of the word at `pc`: from the prefetch buffer where it holds it (R147). DEDUCED, log entry 38. -/
def wordAt (d : Dev) (t k : Nat) (pc : BitVec 14) : W16 :=
  match (d.thread t k).pf.find? (fun (p : BitVec 14 × W16) => p.1 == pc) with
  | some p => p.2
  | none => d.pmRead t pc.toNat

/-- The two words after `pc`, as the prefetch buffer then holds them. DEDUCED, log entry 38. -/
def refill (d : Dev) (t k : Nat) (pc : BitVec 14) : List (BitVec 14 × W16) :=
  [(pc + 1, d.wordAt t k (pc + 1)), (pc + 2, d.wordAt t k (pc + 2))]

/-- An armed breakpoint names thread `k` and address `pc` (R554). -/
def bpHit (d : Dev) (t k : Nat) (pc : BitVec 14) : Bool :=
  let hit (b : W32) : Bool := b.getLsbD 31 && b.getLsbD (16 + k) && b.setWidth 14 == pc
  let x := d.tiller t
  !d.debugClosed && (hit x.bp0 || hit x.bp1)

/-- A word that fails the parity check at issue (R148). DESIGN CHOICE, log entry 6. -/
def parityStop (d : Dev) (t k : Nat) : Dev :=
  let x := d.thread t k
  let d := d.modTiller t (fun y => { y with pmPar := if y.pmPar = 0xFF then 0xFF else y.pmPar + 1 })
  if x.pmDue then
    let d := d.modTiller t (fun y => { y with pmstop := y.pmstop ||| BitVec.ofNat 4 (2 ^ k) })
    d.threadStop t k 1 x.pc
  else d.raiseExc t k 0x08 0 none (if x.ext.isEmpty then x.pc else x.ipc)

/-- Thread `k` with the word at its pc taken: the pc moves past it, and the words after it are prefetched
(R147, R179). DEDUCED, log entry 38. -/
def issued (d : Dev) (t k : Nat) : Dev :=
  d.modThread t k (fun x =>
    { x with ipc := if x.ext.isEmpty then x.pc else x.ipc, pc := x.pc + 1, pf := d.refill t k x.pc, ext := [],
             park := .none, pmFirst := x.pmMarked false, dbg := { x.dbg with passBp := false } })

/-- Thread `k` issues the word at its pc, which is instruction `body` of the EXT group so far (R147,
R148, R176-R179). Nothing issues unless the thread is READY on a tiller that is ON; an armed
breakpoint halts the thread instead (R555). -/
def issue (d : Dev) (t k : Nat) (takesExt : Bool) (body : Dev → List (BitVec 10) → Dev) : Dev :=
  let x := d.thread t k
  if x.st ≠ .ready || !d.tillerOn t then d
  else
    let d := if d.bpHit t k x.pc && !x.dbg.passBp then d.haltCause t k 3 else d
    if (d.thread t k).st ≠ .ready then d
    else if !parityOk (d.wordAt t k x.pc) then d.parityStop t k
    else
      let d := d.issued t k
      let d := if !x.ext.isEmpty && !takesExt then d.illegal t k else body d x.ext
      d.settle t k

/-- EXT (R177, R178): a fourth one is ILLEGAL. -/
def opExt (d : Dev) (t k : Nat) (imm : BitVec 10) (ext : List (BitVec 10)) : Dev :=
  if 3 ≤ ext.length then d.illegal t k else d.modThread t k (fun x => { x with ext := ext ++ [imm] })

/-- What a decoded word does. -/
def runOp (d : Dev) (t k : Nat) (ext : List (BitVec 10)) : SeqOp → Dev
  | .mov a b => d.opMov t k a.toNat b.toNat
  | .add a b => d.opAdd t k a.toNat (fun x => x.rd b.toNat) (fun _ => false)
  | .sub a b => d.opSub t k a.toNat true (fun x => x.rd a.toNat) (fun x => x.rd b.toNat) (fun _ => false)
  | .cmp a b => d.opSub t k a.toNat false (fun x => x.rd a.toNat) (fun x => x.rd b.toNat) (fun _ => false)
  | .addi a i => d.opAdd t k a.toNat (fun _ => immOf ext 5 i.toNat) (fun _ => false)
  | .movi a i => d.opSet t k a.toNat (fun _ => immOf ext 5 i.toNat)
  | .bcc c o => d.opBcc t k c.toNat (immOf ext 5 o.toNat)
  | .dbnz a o => d.opDbnz t k a.toNat (immOf ext 5 o.toNat)
  | .not a => d.opLogic t k a.toNat (fun x => ~~~ x.rd a.toNat)
  | .neg a => d.opSub t k a.toNat true (fun _ => 0) (fun x => x.rd a.toNat) (fun _ => false)
  | .par a => d.opPar t k a.toNat
  | .brev a => d.opLogic t k a.toNat (fun x => reverse32 (x.rd a.toNat))
  | .sext8 a => d.opSet t k a.toNat (fun x => ((x.rd a.toNat).setWidth 8).signExtend 32)
  | .sext16 a => d.opSet t k a.toNat (fun x => ((x.rd a.toNat).setWidth 16).signExtend 32)
  | .zext8 a => d.opSet t k a.toNat (fun x => x.rd a.toNat &&& 0xFF)
  | .zext16 a => d.opSet t k a.toNat (fun x => x.rd a.toNat &&& 0xFFFF)
  | .crc8 a => d.opCrc t k a.toNat 1
  | .crcw a => d.opCrc t k a.toNat 4
  | .crcb a => d.opCrcb t k a.toNat none
  | .wait a => d.opWait t k a.toNat
  | .claim a => d.opClaim t k a.toNat
  | .jr a => d.opJr t k a.toNat
  | .callr a => d.opCallr t k a.toNat
  | .svc a => d.opSvc t k a.toNat
  | .rte a => d.opRte t k a.toNat
  | .psync a => d.opPsync t k a.toNat
  | .fence a => d.opFence t k a.toNat
  | .mfs a s => d.opMfs t k a.toNat s.toNat
  | .mts a s => d.opMts t k a.toNat s.toNat
  | .and a b => d.opLogic t k a.toNat (fun x => x.rd a.toNat &&& x.rd b.toNat)
  | .or a b => d.opLogic t k a.toNat (fun x => x.rd a.toNat ||| x.rd b.toNat)
  | .xor a b => d.opLogic t k a.toNat (fun x => x.rd a.toNat ^^^ x.rd b.toNat)
  | .andn a b => d.opLogic t k a.toNat (fun x => x.rd a.toNat &&& ~~~ x.rd b.toNat)
  | .adc a b => d.opAdd t k a.toNat (fun x => x.rd b.toNat) (fun x => x.c)
  | .sbc a b => d.opSub t k a.toNat true (fun x => x.rd a.toNat) (fun x => x.rd b.toNat) (fun x => !x.c)
  | .mulw a b => d.opMul t k a.toNat b.toNat true
  | .mulwu a b => d.opMul t k a.toNat b.toNat false
  | .shl a b => d.opShift t k a.toNat b.toNat .shl
  | .shr a b => d.opShift t k a.toNat b.toNat .shr
  | .sar a b => d.opShift t k a.toNat b.toNat .sar
  | .rol a b => d.opShift t k a.toNat b.toNat .rol
  | .div a b => d.opDiv t k a.toNat b.toNat true
  | .divu a b => d.opDiv t k a.toNat b.toNat false
  | .ld s a b => d.opLd t k s.toNat a.toNat b.toNat (immOf ext 0 0)
  | .st s a b => d.opSt t k s.toNat a.toNat b.toNat (immOf ext 0 0)
  | .ldx s a b => d.opRemote t k true s.toNat a.toNat b.toNat (immOf ext 0 0)
  | .stx s a b => d.opRemote t k false s.toNat a.toNat b.toNat (immOf ext 0 0)
  | .sow a b => d.opSow t k false a.toNat b.toNat (immOf ext 0 0)
  | .tow a b => d.opSow t k true a.toNat b.toNat (immOf ext 0 0)
  | .ldh a b => d.opLdh t k a.toNat b.toNat (immOf ext 0 0)
  | .sth a b => d.opSth t k a.toNat b.toNat (immOf ext 0 0)
  | .ldhw a b => d.opLdhw t k a.toNat b.toNat
  | .sthw a b => d.opSthw t k a.toNat b.toNat
  | .pmw a b => d.opPmw t k a.toNat b.toNat
  | .jmp o => d.opJmp t k (immOf ext 9 o.toNat)
  | .call o => d.opCall t k (immOf ext 9 o.toNat)
  | .ext i => d.opExt t k i ext

/-- An instruction command: the thread issues the word of `op`. DESIGN CHOICE, log entry 6. -/
def issueOp (d : Dev) (t k : Nat) (op : SeqOp) : Dev :=
  let takes := match op with
    | .ext _ => true
    | _ => op.takesExt
  d.issue t k takes (fun d ext => d.runOp t k ext op)

/-! Starting and stopping threads (R168, R169, R351). -/

/-- TC_START of thread `k` (R168). -/
def tcStart (d : Dev) (t k : Nat) : Dev :=
  let x := d.thread t k
  if x.st ≠ .stopped || !d.tillerOn t then d
  else
    let pc : BitVec 14 := x.entry.setWidth 14
    let d := d.setThread t k { x.wr 1 x.arg with
      st := .ready, park := .none, pc := pc, ipc := pc, ext := [], pf := [], pmFirst := 0,
      priv := x.entry.getLsbD 16, epriv := 0, fepriv := 0, fb := false, threrr := 0 }
    let d := d.traceRec t k 3 0 pc
    if (d.tiller t).hos.getLsbD k then d.haltCause t k 5 else d

/-- TC_STOP of thread `k` (R169). -/
def tcStop (d : Dev) (t k : Nat) : Dev :=
  let x := d.thread t k
  if !d.tillerOn t then d
  else if x.halted then d.setThread t k { x with dbg := { x.dbg with stopReq := true } }
  else match x.st with
    | .ready => if x.ext.isEmpty then d.stopAt t k x.pc false else d.stopAt t k x.ipc false
    | .waiting => d.stopAt t k x.ipc false
    | .parked => if x.abandons then d.stopAt t k x.ipc false else d.setThread t k { x with st := .stopping }
    | _ => d

end Dev
end Sys2Proof.Machine
end

