-- ==== Sys2Proof/Machine/Obj.lean ====
section
/-! DEFINITION. Dictionary objects by domain, the resource claim table, the fields of port and furrow
configuration, and the voiding of the Piste bound (R262, R371, R375, R412, R413, R476, R504). -/

namespace Sys2Proof.Machine

/-- What a dictionary write comes to: the device, or the first failing check. -/
abbrev WRes := Except Status Dev

/-- Continues where a check holds; else the status. -/
def need (c : Bool) (s : Status) (k : WRes) : WRes := if c then k else .error s

/-- A write's device, or the device unchanged. -/
def WRes.orElse (r : WRes) (d : Dev) : Dev :=
  match r with
  | .ok e => e
  | .error _ => d

/-- The domain a block's object is tied to (R476). -/
def objTie (i s : Nat) : Option Nat :=
  let q (p : Nat) : Option Nat := some (61 + p / 2)
  if 0x1060 ≤ i ∧ i ≤ 0x106F then q (i - 0x1060)
  else if 0x1070 ≤ i ∧ i ≤ 0x107F then q (i - 0x1070)
  else if [0x3010, 0x3011, 0x3012, 0x3013, 0x3014, 0x3030, 0x3031, 0x3040, 0x3041].contains i then q (s - 1)
  else if 0x3110 ≤ i ∧ i ≤ 0x3120 then some (61 + (s - 1))
  else if 0x3300 ≤ i ∧ i ≤ 0x3320 then some 69
  else if 0x3400 ≤ i ∧ i ≤ 0x3406 then q (s - 1)
  else if [0x5000, 0x5001, 0x5108, 0x5109].contains i then some (71 + (s - 1))
  else if 0x5100 ≤ i ∧ i ≤ 0x5107 then some (71 + (s - 1) / 16)
  else none

/-- The domain that holds an object (R476). -/
def objHeld (i : Nat) : Nat :=
  if (0x1000 ≤ i ∧ i ≤ 0x10FF) ∨ (0x2000 ≤ i ∧ i ≤ 0x2FFF) ∨ i = 0x7020 ∨ (0x9000 ≤ i ∧ i ≤ 0x9FFF) ∨
    (0xA000 ≤ i ∧ i ≤ 0xAFFF) then 0 else 70

namespace Dev

/-- Returns every object that `p` names to its cold default, its version to 0 (R475-R477). -/
def clearObjs (d : Dev) (p : Nat → Nat → Bool) : Dev :=
  let gone (k : Nat) : Bool := p (k / 256) (k % 256)
  { d with objs := d.objs.filter (fun x => !gone x.1), octs := d.octs.filter (fun x => !gone x.1),
           dict := { d.dict with vers := d.dict.vers.filter (fun x => !gone x.1) } }

/-- Objects of a domain that has left ON or reaches ON (R476). -/
def clearTied (d : Dev) (k : Nat) : Dev :=
  d.clearObjs (fun i s => objTie i s == some k || (k == 70 && objHeld i == 70))

/-! The resource claim table (R504). -/

def holder (d : Dev) (i s : Nat) : Nat := (d.dict.rclaims.get 0 (i * 256 + s)).toNat
def setHolder (d : Dev) (i s v : Nat) : Dev :=
  { d with dict := { d.dict with rclaims := d.dict.rclaims.set 0 (i * 256 + s) (BitVec.ofNat 16 v) } }
/-- Holders of GPIO ball `b`, Almanac unit `u`, CVU `c` and channel `c` of Drill `n`. -/
def ballHolder (d : Dev) (b : Nat) : Nat := d.holder 0xA100 (b + 1)
def unitHolder (d : Dev) (u : Nat) : Nat := d.holder 0xA101 (u + 1)
def cvuHolder (d : Dev) (u : Nat) : Nat := d.holder 0xA102 (u + 1)
def chanHolder (d : Dev) (n c : Nat) : Nat := d.holder (0xA110 + n) (c + 1)
/-- Frees the entries that holder `v` has. -/
def freeHeldBy (d : Dev) (v : Nat) : Dev :=
  { d with dict := { d.dict with rclaims := d.dict.rclaims.filter (fun p => p.2.toNat != v) } }

/-! Almanac units, ports and furrows by number. -/

def ccUnit (d : Dev) (u : Nat) : CcUnit := d.alm.units.get {} u
def setUnit (d : Dev) (u : Nat) (x : CcUnit) : Dev := { d with alm := { d.alm with units := d.alm.units.put u x } }
/-- A block releases an Almanac unit: the entry is free and the unit off. -/
def releaseUnit (d : Dev) (u : Nat) : Dev := (d.setHolder 0xA101 (u + 1) 0).setUnit u { d.ccUnit u with cfg := 0 }

def furrow (d : Dev) (f : Nat) : Furrow := d.furrows.get {} f
def setFurrow (d : Dev) (f : Nat) (x : Furrow) : Dev := { d with furrows := d.furrows.put f x }
def modFurrow (d : Dev) (f : Nat) (g : Furrow → Furrow) : Dev := d.setFurrow f (g (d.furrow f))
def peng (d : Dev) (g : Nat) : PortEng := d.pengs.get {} g
def setPeng (d : Dev) (g : Nat) (x : PortEng) : Dev := { d with pengs := d.pengs.put g x }

end Dev

/-! The furrow context (R412, R413). -/

namespace Furrow

def w (x : Furrow) (i : Nat) : Nat := (x.ctx.get 0 i).toNat
def vlen (x : Furrow) : Bool := bitN (x.w 0) 63
def kind (x : Furrow) : Nat := fld (x.w 0) 61 60
def vid (x : Furrow) : Nat := fld (x.w 0) 59 48
def typeport (x : Furrow) : Nat := fld (x.w 0) 47 32
def stream (x : Furrow) : Nat := fld (x.w 0) 31 0
def cls (x : Furrow) : Nat := fld (x.w 1) 63 62
def form (x : Furrow) : Nat := fld (x.w 1) 61 60
def seqen (x : Furrow) : Bool := bitN (x.w 1) 59
def chainOn (x : Furrow) : Bool := bitN (x.w 1) 58
def chkpol (x : Furrow) : Bool := bitN (x.w 1) 57
def ovpol (x : Furrow) : Bool := bitN (x.w 1) 56
def losskeep (x : Furrow) : Bool := bitN (x.w 1) 55
def anysrc (x : Furrow) : Bool := bitN (x.w 1) 54
def portNo (x : Furrow) : Nat := fld (x.w 1) 51 48
def partner (x : Furrow) : Nat := fld (x.w 1) 47 40
def cvu (x : Furrow) : Nat := fld (x.w 1) 39 35
def src (x : Furrow) : Nat := fld (x.w 1) 31 22
def eng (x : Furrow) : Nat := fld (x.w 1) 21 20
def slot (x : Furrow) : Nat := fld (x.w 1) 19 16
def quant (x : Furrow) : Nat := fld (x.w 1) 15 8
def fqcap (x : Furrow) : Nat := fld (x.w 1) 7 0
def wtype (x : Furrow) : Nat := fld (x.w 2) 63 60
def welem (x : Furrow) : Nat := fld (x.w 2) 55 32
def nslot (x : Furrow) : Nat := fld (x.w 2) 31 20 + 1
def wto (x : Furrow) : Nat := fld (x.w 2) 19 0
def ring (x : Furrow) : Nat := fld (x.w 3) 45 6 * 64
def ledger (x : Furrow) : Nat := fld (x.w 4) 45 5 * 32
def entry (x : Furrow) : Nat := fld (x.w 5) 47 0
def out (x : Furrow) : Nat := fld (x.w 6) 59 48
def hlen (x : Furrow) : Nat := fld (x.w 6) 47 40
def wper (x : Furrow) : Nat := fld (x.w 6) 15 0
def piste (x : Furrow) : Bool := x.cls == 2

/-- The window size WB in bytes (R413); FORM 1 and 2: WELEM. -/
def wb (x : Furrow) : Nat :=
  if x.form ≠ 0 then x.welem
  else match ETy.ofCode x.wtype with
    | some .bit => x.welem / 8
    | some .sh8 => x.welem + x.welem / 32
    | some t => x.welem * t.size
    | none => 0
def stride (x : Furrow) : Nat := (x.wb + 63) / 64 * 64
def slotPa (x : Furrow) (k : Nat) : Nat := x.ring + k * x.stride
def ledgerPa (x : Furrow) (k : Nat) : Nat := x.ledger + 32 * k
/-- A fallback ring exists: RING and LEDGER of a Piste furrow are not both zero (R434). -/
def hasRing (x : Furrow) : Bool := !(x.piste && x.ring == 0 && x.ledger == 0)
/-- Counter Ci (R433). -/
def counter (x : Furrow) (i : Nat) : Nat := x.ctr.get 0 i
def bump (x : Furrow) (i n : Nat) : Furrow := { x with ctr := x.ctr.put i (satAdd max64 (x.counter i) n) }
/-- The window in assembly: the last one, if it is not closed. -/
def assembling (x : Furrow) : Option Asm :=
  match x.wins.getLast? with
  | some a => if a.closed.isSome then none else some a
  | none => none
/-- States in which a furrow takes part in matching and in the checks of R434. -/
def enabledSt (x : Furrow) : Bool := x.st == .enabled || x.st == .quiesced

end Furrow

namespace Dev

/-- A partner's source frames are those of its entry (R415). -/
def partner (d : Dev) (n : Nat) : Partner := d.partners.table.get {} n

/-! The Piste bound (R262). -/

/-- Domains of memory behind a physical range, within one window (R27). -/
def domsOf (pa : Nat) : List Nat :=
  match region pa with
  | .loam _ => (List.range 8).map loamDom
  | .granGlobal _ => (List.range 4).map granDom
  | .granQuad q _ => [granDom q]
  | .piste e _ => [pisteDom e]
  | .device _ => []
  | .host _ => [69, 70]
  | .peer _ _ => [70]
  | .hole => []

/-- A furrow has an output furrow. OUT = 0 names none, except for a Piste furrow (R412).
DESIGN CHOICE, log entry 170. -/
def hasOut (x : Furrow) : Bool := x.out != 0 || x.piste

/-- The domains that a window of furrow `f` needs on its way into the ring (`ring`) or into its Piste store
(R41, R258): the quads of its ingress and egress ports, PD70, PD75 where a sequence check or a CVU is attached,
its buffers, the result buffers of its output furrow, and its target tillers' pairs. DEDUCED, log entry 19. -/
def pathDoms (d : Dev) (f : Nat) (ring : Bool) : List Nat :=
  let x := d.furrow f
  let o := d.furrow x.out
  let chk := x.seqen || x.chainOn || (hasOut x && o.chainOn)
  let tl := if ring then ((List.range 96).filter (fun t => (d.src x.src).targets t)).map pairDom else []
  [61 + f / 512, 70] ++ (if hasOut x then [61 + x.out / 512] else []) ++ (if chk then [75] else []) ++
  (if ring then domsOf x.ring ++ domsOf x.ledger else [pisteDom x.eng]) ++
  (if hasOut x && !x.piste then domsOf o.ring ++ domsOf o.ledger else []) ++ tl.eraseDups

/-- The domains the path of furrow `f` needs (R41). -/
def furrowDoms (d : Dev) (f : Nat) : List Nat := d.pathDoms f (!(d.furrow f).piste)

/-- The domains a window needs: a demoted one goes to the fallback ring (R258). -/
def winDoms (d : Dev) (f : Nat) (a : Asm) : List Nat := d.pathDoms f (a.demoted || !(d.furrow f).piste)

/-- A slot whose programs are admitted: ADMITTED or WITHDRAWING. -/
def slotLive (d : Dev) (e s : Nat) : Bool := let x := d.pslot e s; x.st == .admitted || x.st == .withdrawing

/-- The egress port of a slot's output furrow. -/
def slotPort (d : Dev) (e s : Nat) : Nat := (d.furrow (d.furrow (d.pslot e s).furrow).out).portNo

/-- Blocks on a slot's path that debug may freeze (R262, R562). -/
def slotBlocks (d : Dev) (e s : Nat) : List Nat :=
  let x := d.furrow (d.pslot e s).furrow
  let o := d.furrow x.out
  [48 + e, 40 + (d.pslot e s).furrow / 512, 40 + x.out / 512] ++
  (if x.chainOn then [x.cvu] else []) ++ (if o.chainOn then [o.cvu] else []) ++
  (List.range 8).filterMap (fun n =>
    if (List.range 4).any (fun c => d.chanHolder n c != 0) then some (32 + n) else none)

/-- The domains on a slot's path. DEDUCED, log entry 69. -/
def slotDoms (d : Dev) (e s : Nat) : List Nat := d.furrowDoms (d.pslot e s).furrow ++ [pisteDom e]

/-- Sets VOID of every live slot that `p` names and raises the void event of each engine touched. -/
def voidSlots (d : Dev) (p : Nat → Nat → Bool) : Dev :=
  (List.range 4).foldl (fun d e =>
    let ss := (List.range 16).filter (fun s => d.slotLive e s && p e s)
    let d := ss.foldl (fun d s => d.setPslot e s { d.pslot e s with void_ := true }) d
    if ss.isEmpty then d else d.occur (0x574 + e)) d

/-- A condition of R262 holds now for a slot. DEDUCED, log entry 69. -/
def voidNow (d : Dev) (e s : Nat) : Bool :=
  (d.slotBlocks e s).any d.frozen || (d.slotDoms e s).any (fun k => !d.domOn k) ||
  !d.portUp (d.slotPort e s) || (d.port (d.slotPort e s)).paused || d.hl.throttle != 0 ||
  d.partners.table.any (fun y => y.2.st == 2 && y.2.port == d.slotPort e s)

/-- A new freeze voids the slots whose path it touches. DEDUCED, log entry 69. -/
def voidFrozen (d : Dev) : Dev := d.voidSlots (fun e s => (d.slotBlocks e s).any d.frozen)

/-- Counts windows refused (0x5104). -/
def pisteRefused (d : Dev) (e s n : Nat) : Dev := d.bumpBy 0x5104 (1 + 16 * e + s) n max64

end Dev
end Sys2Proof.Machine
end

