-- ==== Sys2Proof/Machine/Port.lean ====
section
/-! DEFINITION. Ethernet ports: lanes and their owners, configuration, the state machine, PAUSE and
PFC, preemption, MACsec, LLDP, frames received and sent (R370-R383). -/

namespace Sys2Proof.Machine
namespace Dev

/-! Lanes (R371, R372). -/

/-- Lanes of MAC `p` at a RATE code, by device lane number. -/
def macLanes (p rate : Nat) : List Nat :=
  let b := 4 * (p / 2)
  let n := match rate with
    | 1 | 2 => 1 | 3 => 2 | 4 => 4 | 5 => 8 | _ => 0
  (List.range n).map (b + 2 * (p % 2) + ·)

/-- Lanes of bond `b` with configuration `cfg` (R371, R395). -/
def bondLanes (b cfg : Nat) : List Nat :=
  let w := 2 ^ fld cfg 30 28
  let fl := if w = 8 then 0 else fld cfg 27 26
  (List.range w).map (4 * (b / 2) + fl + ·)

/-- A lane owned by an enabled MAC other than `p`, or an enabled bond other than `b`. DEDUCED, log entry 70. -/
def laneTaken (d : Dev) (p b : Option Nat) (lane : Nat) : Bool :=
  (List.range 16).any (fun q => p != some q && d.portEn q && (macLanes q (fld (d.portCfg q) 30 28)).contains lane) ||
  (List.range 16).any (fun q => b != some q && bitN (d.obj 0x3400 (q + 1)) 31 && (bondLanes q (d.obj 0x3400 (q + 1))).contains lane)

/-- The quads of a list of lanes. -/
def laneQuads (ls : List Nat) : List Nat := (ls.map (· / 4)).eraseDups

/-! Configuration (R372, R375, R376, R380). -/

/-- Ranges of 0x3010 (R371, R375). DEDUCED, log entry 70. -/
def portCfgRange (p v : Nat) : Bool :=
  let rate := fld v 30 28
  let m := fld v 13 0
  fld v 15 14 == 0 && decide (rate < 6) && (m == 0 || (decide (1518 ≤ m) && decide (m ≤ 9216))) &&
  !(bitN v 31 && (rate == 0 || (p % 2 == 1 && decide (4 ≤ rate)) || (p / 2 % 2 == 1 && rate == 5)))

/-- A port leaves UP or is enabled: what it has reached is dropped, and frames that wait are discarded and counted
(R376, R378). -/
def portDrop (x : Port) (s : PortSt) : Port :=
  { x with st := s, preempting := false, verify := false, paused := false, stopped := 0, xoff := false, held := [],
           frames := if x.held.isEmpty then x.frames else x.frames.put 4 (satAdd max64 (x.frames.get 0 4) x.held.length) }

/-- The quad domains of a port's lanes are ON (R371): a 400 Gbit/s port needs both. -/
def portLanesOn (d : Dev) (p : Nat) : Bool :=
  (laneQuads (macLanes p (fld (d.portCfg p) 30 28))).all (fun c => d.domOn (quadDom c))

/-- A write of port configuration (R372, R375, R376). DEDUCED, log entries 70 and 71. -/
def portCfgWrite (d : Dev) (p v : Nat) : WRes :=
  let old := d.portCfg p
  let v := v % 2 ^ 32
  let ls := macLanes p (fld v 30 28)
  need (portCfgRange p v) .range <|
  need (!(bitN old 31 && fld old 30 28 != fld v 30 28)) .busy <|
  if bitN v 31 && !bitN old 31 then
    need ((laneQuads ls).all (fun c => d.domOn (quadDom c))) .off <|
    need (!(ls.any (fun l => d.hl.lanesFailed.getLsbD l))) .busy <|
    need (!(ls.any (d.laneTaken (some p) none))) .conflict <|
    .ok (((d.setObj 0x3010 (p + 1) v).modPort p (fun x =>
      { portDrop x .down with localFault := false, remoteFault := false })).occur (0x600 + p))
  else if !bitN v 31 && bitN old 31 then
    .ok (((d.setObj 0x3010 (p + 1) v).modPort p (portDrop · .disabled)).voidSlots (fun e s => d.slotPort e s == p))
  else .ok (d.setObj 0x3010 (p + 1) v)

/-- Values of 0x3030 that are in range (R380, R480). -/
def macsecCfgRange (d : Dev) (p v : Nat) : Bool :=
  fld v 24 0 == 0 && fld v 29 28 != 3 && fld v 27 26 != 3 &&
  !(bitN v 31 && bitN v 25 && ((d.oct (0x1070 + p) 1).all (· == 0) || d.obj (0x1070 + p) 2 == 0xFF))

/-- A transmit SA of port `p` holds a key (R480). -/
def txInstalled (d : Dev) (p a : Nat) : Bool := (d.oct (0x1060 + p) (1 + a)).any (· != 0)

/-- A write of a MACsec SA (R480). -/
def saWrite (d : Dev) (p s : Nat) (bs : List W8) : WRes :=
  let pn := ofLE (slice bs 48 8)
  need (decide (1 ≤ pn)) .range <|
  if s ≤ 4 then
    need (d.obj (0x1070 + p) 2 != s - 1) .busy <|
    .ok ((d.setOct (0x1060 + p) s bs).modPort p (fun x => { x with txPn := x.txPn.put (s - 1) pn }))
  else .ok ((d.setOct (0x1060 + p) s bs).modPort p (fun x => { x with rxPn := x.rxPn.put s pn }))

/-- A write of a MACsec secure channel object at subindex `s` of 0x1070 + p (R480). -/
def scWrite (d : Dev) (p s : Nat) (bs : List W8) : WRes :=
  let i := 0x1070 + p
  let v := ofLE bs
  if s = 2 then
    need (v == 0xFF || (decide (v ≤ 3) && d.txInstalled p v)) .range <| .ok (d.setObj i 2 v)
  else if 0x14 ≤ s then need (decide (v < 16)) .range <| .ok (d.setObj i s v)
  else if 4 ≤ s then
    need (bs.all (· == 0) || (List.range 16).all (fun c => c + 4 == s || d.oct i (c + 4) != bs)) .conflict <|
    .ok (d.setOct i s bs)
  else .ok (d.setOct i s bs)

/-! The state machine (R376, R378). -/

/-- PCS_LOCK: a DOWN port with lock and no fault holds (R371, R376). DEDUCED, log entry 71. -/
def pcsLock (d : Dev) (p : Nat) : Dev :=
  if (d.port p).st == .down && d.portLanesOn p then
    d.modPort p (fun x => { x with st := .hold, localFault := false, remoteFault := false })
  else d

/-- The verify exchange begins on a port that has entered UP with EXPRESS (R378): its first attempt leaves. -/
def verifyStart (d : Dev) (p : Nat) : Dev :=
  if d.portExpress p then (d.modPort p (fun x => { x with verify := true })).emit (.verify p 0) else d

/-- HOLD_TIMEOUT: the hold time has passed with no fault; the greeting budget is full (R371, R376, R440), and the
verify exchange begins. -/
def holdTimeout (d : Dev) (p : Nat) : Dev :=
  if (d.port p).st == .hold && d.portLanesOn p then
    ((d.modPort p (fun x => { x with st := .up, tokens := 64 })).verifyStart p).occur (0x600 + p)
  else d

/-- LINK_FAULT: in HOLD at once, in UP after 5 us or on loss of lock. DEDUCED, log entry 71. -/
def linkFault (d : Dev) (p : Nat) (loc rem : Bool) : Dev :=
  let x := d.port p
  match x.st with
  | .disabled => d
  | .down => d.setPort p { x with localFault := loc, remoteFault := rem }
  | .hold => (d.setPort p { portDrop x .down with localFault := loc, remoteFault := rem }).occur (0x600 + p)
  | .up =>
    ((d.setPort p { portDrop x .down with localFault := loc, remoteFault := rem }).occur (0x600 + p)).voidSlots
      (fun e s => d.slotPort e s == p)

/-- PREEMPT_VERIFY: the verify exchange of a port in UP ends (R378). It fails after its third attempt; after how
many it succeeds is a free choice. DESIGN CHOICE, log entry 172. -/
def preemptVerify (d : Dev) (p : Nat) (ok : Bool) : Dev :=
  if d.portUp p && d.portExpress p && (d.port p).verify then
    let (d, more) := if ok then (let (d, v) := d.free; (d, v % 3)) else (d, 2)
    let d := (List.range more).foldl (fun d _ => d.emit (.verify p 0)) d
    d.modPort p (fun x => { x with preempting := ok, verify := false })
  else d

/-! Counters and frames. -/

/-- Raises classifier counter `i` of 0x3014 (R443). -/
def countClass (d : Dev) (p i : Nat) : Dev :=
  d.modPort p (fun x => { x with classes := x.classes.put i (satAdd max64 (x.classes.get 0 i) 1) })

/-- Source 0x610 + p for dropped frames, at most once per ms (R380). -/
def secEvent (d : Dev) (p : Nat) : Dev :=
  if onePerMs d.mono (d.port p).secAt then (d.modPort p (fun x => { x with secAt := some d.mono })).occur (0x610 + p) else d

/-! Reception. -/

/-- The receive SA a tag names: its subindex in 0x1060 + p. DEDUCED, log entry 74. -/
def rxSa (d : Dev) (p : Nat) (t : SecTag) : Option Nat :=
  ((List.range 16).find? (fun c =>
    let sci := d.oct (0x1070 + p) (c + 4)
    sci.any (· != 0) && sci == t.sci && bitN (d.obj (0x1070 + p) (c + 0x14)) t.an)).map (fun c => 1 + 4 * (c + 1) + t.an)

/-- The PN of a received frame, from the 32 bits that its SecTAG carries and the next PN expected: under XPN its
upper half is the expected one's, or one more where the lower half has wrapped. PRESUMED, log entry 173. -/
def fullPn (xpn : Bool) (next pn : Nat) : Nat :=
  let lo := pn % 2 ^ 32
  if !xpn then lo
  else next / 2 ^ 32 * 2 ^ 32 + lo + (if lo < 2 ^ 31 ∧ 2 ^ 31 ≤ next % 2 ^ 32 then 2 ^ 32 else 0)

/-- MACsec on a received frame (R380, R480): whether it passes; `icv` is the outcome of its
integrity check, if it has a SecTAG. DESIGN CHOICE, log entry 178; DEDUCED, log entry 74. -/
def secPass (d : Dev) (p : Nat) (tag : Option SecTag) (icv : Bool) (bs : List W8) : Dev × Bool :=
  let cfg := d.obj 0x3030 (p + 1)
  let drop (d : Dev) : Dev × Bool :=
    ((d.modPort p (fun x => { x with secDrops := x.secDrops + 1 })).secEvent p, false)
  if !bitN cfg 31 || d.uncontrolled bs then (d, true)
  else
    let strict := fld cfg 27 26 == 2
    match tag with
    | none => if strict then drop d else (d, true)
    | some t => match d.rxSa p t with
      | none => if strict then drop d else (d, true)
      | some s =>
        if !icv then (if strict then drop d else (d, true))
        else
          let next := (d.port p).rxPn.get 1 s
          let pn := fullPn (bitN cfg 30) next t.pn
          if pn + d.obj 0x3031 (p + 1) < next then drop d
          else (d.modPort p (fun x => { x with rxPn := x.rxPn.put s (max next (pn + 1)) }), true)

/-- What the MAC makes of a frame that reaches a port: dropped and counted, or passed on good (R374, R375, R376).
`around` bytes of MACsec surround it on the wire; a frame of fewer than 64 bytes there is dropped.
DEDUCED, log entry 174. -/
def macPass (d : Dev) (p : Nat) (fcs : Bool) (bs : List W8) (around : Nat := 0) : Dev × Bool :=
  if !d.portUp p || decide (bs.length + around + 4 < 64) then (d, false)
  else if !fcs then (d.countFrame p 1, false)
  else if d.maxFrame p < bs.length + 4 then (d.countFrame p 2, false)
  else (d.countFrame p 0, true)

/-- A PAUSE frame at a port that obeys it or discards it (R377). -/
def pauseIn (d : Dev) (p quanta : Nat) : Dev :=
  if !bitN (d.portCfg p) 26 then d
  else
    let stop := quanta != 0
    let d := d.modPort p (fun x => { x with paused := stop })
    if stop then d.voidSlots (fun e s => d.slotPort e s == p) else d.flushHeld p

/-- PAUSE_FRAME: counted as received good. DEDUCED, log entry 72. -/
def pauseFrame (d : Dev) (p quanta : Nat) : Dev := if d.portUp p then (d.countFrame p 0).pauseIn p quanta else d

/-- A PFC frame (R377): the enabled Bulk priorities stop, or start again at quanta 0. -/
def pfcIn (d : Dev) (p : Nat) (enable : W8) (quanta : List Nat) : Dev :=
  if !bitN (d.portCfg p) 24 then d
  else
    let acts (i : Nat) : Bool := enable.getLsbD i && bitN (d.portCfg p) (16 + i)
    let v := (List.range 8).foldl (fun a i =>
      a + 2 ^ i * b2n (if acts i then quanta.getD i 0 != 0 else (d.port p).stopped.getLsbD i)) 0
    d.modPort p (fun x => { x with stopped := BitVec.ofNat 8 v })

/-- PFC_FRAME: counted as received good. DEDUCED, log entry 72. -/
def pfcFrame (d : Dev) (p : Nat) (enable : W8) (quanta : List Nat) : Dev :=
  if d.portUp p then (d.countFrame p 0).pfcIn p enable quanta else d

/-- PAUSE_TIMER_EXPIRY: of the PAUSE, or of one priority. -/
def pauseExpiry (d : Dev) (p : Nat) (prio : Option Nat) : Dev :=
  match prio with
  | none => (d.modPort p (fun x => { x with paused := false })).flushHeld p
  | some i => d.modPort p (fun x => { x with stopped := BitVec.ofNat 8 (putFld x.stopped.toNat i i 0) })

/-! LLDP (R381). -/

/-- TLVs of an LLDPDU up to the End TLV; none where one runs past the end. -/
def lldpTlvs : Nat → List W8 → Option (List (Nat × List W8))
  | 0, _ => none
  | n + 1, bs =>
    if bs.length < 2 then none
    else
      let h := ofBE (bs.take 2)
      let t := h / 512
      let l := h % 512
      let rest := bs.drop 2
      if rest.length < l then none
      else if t = 0 then (if l = 0 then some [] else none)
      else (lldpTlvs n (rest.drop l)).map (fun r => (t, rest.take l) :: r)

/-- The TTL of a valid LLDPDU: Chassis ID, Port ID and TTL come first, End last. PRESUMED, log entry 75. -/
def lldpTtl (bs : List W8) : Option Nat :=
  match lldpTlvs 800 bs with
  | some ((1, c) :: (2, q) :: (3, t) :: _) =>
    if 2 ≤ c.length && 2 ≤ q.length && 2 ≤ t.length then some (ofBE (t.take 2)) else none
  | _ => none

def isLldp (bs : List W8) : Bool :=
  (etherAt bs).1 == 0x88CC &&
  [0x0180C200000E, 0x0180C2000003, 0x0180C2000000].contains (ofBE (bs.take 6))

/-- Stores a valid LLDPDU, empties the object at TTL 0, counts a malformed one. PRESUMED, log entry 75. -/
def lldpStore (d : Dev) (p : Nat) (bs : List W8) : Dev :=
  let pdu := bs.drop (etherAt bs).2
  match lldpTtl pdu with
  | some ttl =>
    if 1500 < pdu.length then d.modPort p (fun x => { x with badLldp := x.badLldp + 1 })
    else if ttl = 0 then d.modPort p (fun x => { x with lldp := [], lldpAt := 0, lldpSrc := 0 })
    else (d.modPort p (fun x => { x with lldp := pdu, lldpAt := d.alm10, lldpSrc := ofBE (slice bs 6 6) })).occur (0x600 + p)
  | none => d.modPort p (fun x => { x with badLldp := x.badLldp + 1 })

/-- LLDP_RECEIVE: an LLDP frame that has passed the port. -/
def lldpReceive (d : Dev) (p : Nat) (bs : List W8) : Dev :=
  let (d, ok) := d.macPass p true bs
  if ok && isLldp bs then d.lldpStore p bs else d

/-- LLDP_TTL_EXPIRE. -/
def lldpExpire (d : Dev) (p : Nat) : Dev := d.modPort p (fun x => { x with lldp := [], lldpAt := 0, lldpSrc := 0 })

/-! Reads of the ports' own objects (R375, R381, R383, R443, R480). -/

/-- 0x3011. -/
def portState (d : Dev) (p : Nat) : Nat :=
  let x := d.port p
  x.st.code + b2n x.preempting * 4 + b2n x.localFault * 8 + b2n x.remoteFault * 16

/-- A row of U64 counters as octets. -/
def counterOcts (m : SMap Nat) (n : Nat) : List W8 := (List.range n).flatMap (fun i => toLE 8 (m.get 0 i))

/-- 0x3040: the LLDPDU and then its arrival time; empty where none is stored. PRESUMED, log entry 75. -/
def lldpObj (d : Dev) (p : Nat) : List W8 :=
  let x := d.port p
  if x.lldp.isEmpty then [] else x.lldp ++ toLE 10 x.lldpAt

/-- 0x1070 + p:03 and :24. -/
def txSaMask (d : Dev) (p : Nat) : Nat := (List.range 4).foldl (fun a i => a + 2 ^ i * b2n (d.txInstalled p i)) 0
def txNextPn (d : Dev) (p : Nat) : Nat :=
  let an := d.obj (0x1070 + p) 2
  if an = 0xFF then 0 else (d.port p).txPn.get 0 an

/-- A quad domain reaches ON, or leaves it: its ports and bonds are disabled (R373). -/
def quadCold (d : Dev) (c : Nat) : Dev :=
  let d := [2 * c, 2 * c + 1].foldl (fun d p => (d.setPort p {}).setBond p {}) d
  { d with furrows := d.furrows.filter (fun x => x.1 / 512 != c), pengs := d.pengs.del c }

end Dev
end Sys2Proof.Machine
end

