-- ==== Sys2Proof/Machine/Piste.lean ====
section
/-! DEFINITION. The Piste engines: control block, descriptors and their checks, cycle counts,
admission and withdrawal, the run queue, runs, deadlines (R236-R265). -/

namespace Sys2Proof.Machine

namespace PSlot

/-- Slot registers (R241). -/
def nseed (x : PSlot) : Nat := fld x.cfg.toNat 4 0
def wlenN (x : PSlot) : Nat := x.wlen.toNat
def rlenN (x : PSlot) : Nat := x.rlen.toNat
def wbuf (x : PSlot) (i : Bool) : Nat := (if i then x.wbuf1 else x.wbuf0).toNat
def rbuf (x : PSlot) (i : Bool) : Nat := (if i then x.rbuf1 else x.rbuf0).toNat
def wbusy (x : PSlot) (i : Bool) : Bool := if i then x.wbusy1 else x.wbusy0
def setWbusy (x : PSlot) (i b : Bool) : PSlot := if i then { x with wbusy1 := b } else { x with wbusy0 := b }

/-- Descriptor `j` of the slot as its words (R42). -/
def dwords (x : PSlot) (j : Nat) : DWords :=
  let w (i : Nat) : Nat := (x.descs.get 0 (8 * j + i)).toNat
  ⟨w 0, w 1 % 2 ^ 32, w 1 / 2 ^ 32, w 2, w 3, w 4, w 5, w 6, w 7⟩

/-- A store offset of an address field with the buffers of index `i` (R244); none for a form that is
not allowed. -/
def resolve (x : PSlot) (i : Bool) (v : Nat) : Option Nat :=
  if v / 2 ^ 24 ≠ 0 then none
  else match fld v 23 22 with
    | 0 => some (fld v 21 0)
    | 1 => some (x.wbuf i + fld v 21 0)
    | 2 => some (x.rbuf i + fld v 21 0)
    | _ => none

/-- Buffers of a slot as store ranges: the two window buffers, the two result buffers. -/
def bufs (x : PSlot) : List (Nat × Nat) :=
  [(x.wbuf false, x.wlenN), (x.wbuf true, x.wlenN), (x.rbuf false, x.rlenN), (x.rbuf true, x.rlenN)]

end PSlot

/-! Checks of a Piste seed (R243). -/

/-- Operations that have a Piste form. -/
def pisteOp (op : Nat) : Bool :=
  (decide (1 ≤ op) && decide (op ≤ 0x0D)) || (decide (0x10 ≤ op) && decide (op ≤ 0x13)) ||
  (decide (0x18 ≤ op) && decide (op ≤ 0x1E)) || (decide (0x20 ≤ op) && decide (op ≤ 0x22)) ||
  [0x28, 0x30, 0x31, 0x48, 0x49].contains op || (decide (0x38 ≤ op) && decide (op ≤ 0x3D))

/-- Types a seed's operands use. -/
def DWords.types (x : DWords) : List ETy :=
  (if x.usesA then [x.ta] else []) ++ (if x.info.hasB then [x.tb] else []) ++ [x.td]

/-- The FCODE that a descriptor fails with in the order of R67; 0 for none. OVERLAP is checked apart. -/
def pisteDesc (x : DWords) : Nat :=
  let c := x.ctrl
  if c / 2 ^ 48 ≠ 0 || x.prog != 0 || decide (0xD ≤ fTA c) || decide (0xD ≤ fTB c) || decide (0xD ≤ fTD c) ||
    fBMODE c == 3 || fTLOUT c || fTLHOP c != 0 || fSTRIP c != 0 || fCVU c != 0 || fCVEN c || fEVT c || fPX c ||
    (!fMASKEN c && fMZERO c) then 0x01
  else if (opInfo x.op).isNone || !pisteOp x.op then 0x02
  else if (!x.usesA && fTA c != 0) || (!x.info.hasB && fTB c != 0) || rsvdAux x || rsvdScalar x then 0x01
  else if !typeOk x || x.types.any (fun t => t == .i64 || t == .f64) then 0x03
  else if x.bmode == 2 || operandBad x then 0x04
  else if decide (4096 < x.len) || (x.len != 0 && lengthBad x) then 0x05
  else 0

/-- OVERLAP within a seed (R73), with the buffers of index `i`. -/
def pisteOverlap (s : PSlot) (x : DWords) (i : Bool) : Bool :=
  let rs := (rangesOf x false).filterMap (fun (p : Role × Nat × Nat) =>
    (s.resolve i p.2.1).map (fun o => (p.1, (⟨0, o, p.2.2⟩ : Rng))))
  x.len != 0 && overlapBad x.op (x.ta.size == x.td.size) rs

/-- Address fields that a seed does not use (R244). DEDUCED, log entry 62. -/
def pisteUnused (x : DWords) : List Nat :=
  let nsh := x.sheafs.length
  (if x.usesA then [] else [x.a]) ++ (if x.info.hasB && x.bmode = 0 then [] else [x.b]) ++
  (if nsh = 0 then [x.scl0] else []) ++ (if !x.masked && decide (nsh < 2) then [x.xp] else [])

/-- A range that breaks R244: its form, the store, or its buffer. DEDUCED, log entry 62. -/
def pisteRangeBad (s : PSlot) (v n : Nat) : Bool :=
  let lim := match fld v 23 22 with
    | 0 => 0x40_0000 | 1 => s.wlenN | 2 => s.rlenN | _ => 0
  decide (2 ^ 24 ≤ v) || fld v 23 22 == 3 || (n != 0 && decide (lim < fld v 21 0 + n))

/-! Cycle counts (R246, R247). -/

def ceilDiv (a b : Nat) : Nat := (a + b - 1) / b

/-- Elements of a type per fc (R247). -/
def pisteLanes : ETy → Nat
  | .bit => 2048
  | .bf16 | .f16 => 128
  | .f32 => 64
  | t => 256 / t.size

/-- Streaming count N. DEDUCED, log entry 63. -/
def pisteN (x : DWords) : Nat :=
  let n := x.len
  let op := x.op
  let sh := !x.sheafs.isEmpty
  let half (t : ETy) : Bool := t == .bf16 || t == .f16
  if op = 0x22 then ceilDiv (if x.td = .bit then (n + 7) / 8 else n * x.td.size) 256
  else if op = 0x48 then
    if x.ta = .f32 then ceilDiv (n * x.taps) 64
    else max (ceilDiv n 64) (ceilDiv (n * x.taps) (if x.ta.size = 1 then 256 else 128))
  else if op = 0x49 then
    ceilDiv n (if x.ta = .f16 then (if x.radix = 4 then 4 else 12) else (if x.radix = 4 then 2 else 6))
  else if op = 0x28 then
    ceilDiv n (if x.ta = .f32 || x.ta = .sh8 || x.td = .f32 || x.td = .sh8 then 64 else 256 / max x.ta.size x.td.size)
  else if op = 0x30 then ceilDiv n (if x.ta.size = 1 then 128 else 64)
  else if op = 0x31 then ceilDiv n 64
  else if op = 0x3D then ceilDiv n (if x.ta.size = 1 then 256 else pisteLanes x.ta)
  else if (op = 0x10 || op = 0x11) && !sh then ceilDiv n (if half x.td then 16 else 8)
  else if sh then ceilDiv n (if half x.td then 128 else 64)
  else ceilDiv n (pisteLanes x.ta)

/-- Tail T: the depth of R157, or the partial-forming tail of R220. DEDUCED, log entry 63. -/
def pisteT (x : DWords) : Nat :=
  let op := x.op
  let fp := x.types.any (fun t => t.isFP || t == .sh8)
  if op = 0x38 || op = 0x3D then
    (if x.td = .bf16 || x.td = .f16 then 36 else if x.td = .f32 then 30 else 18)
  else if isRed op then 18
  else if op = 0x10 || op = 0x11 then 20
  else if op = 0x30 || op = 0x31 then 5
  else if op = 0x48 then (if x.ta.isFP then 6 else 5)
  else if (op = 0x03 || op = 0x13) && !fp then 5
  else if fp then 6 else 3

/-- The cost c of a seed. DESIGN CHOICE, log entry 12. -/
def pisteCost (x : DWords) : Nat :=
  let p := if x.op = 0x48 then ceilDiv (x.taps * x.tb.size) 256 else 0
  if x.len = 0 then 4 + p
  else
    let starts := (if x.usesA then [x.a] else []) ++ (if x.info.hasB && x.bmode = 0 then [x.b] else []) ++ [x.d]
    4 + p + pisteN x + pisteT x + b2n (starts.any (fun v => v % 256 != 0))

/-- The cost C of a slot's program. -/
def PSlot.cost (s : PSlot) : Nat := 12 + ((List.range s.nseed).map (fun j => pisteCost (s.dwords j))).sum

namespace Dev

/-- DESIGN CHOICE, log entry 12. -/
def storeBase (e : Nat) : Nat := 0x000A_0000_0000 + e * 0x40_0000

/-- 0x5001: the sum of C over live slots. -/
def admittedCycles (d : Dev) (e : Nat) : Nat :=
  ((List.range 16).map (fun s => if d.slotLive e s then (d.pslot e s).cycles else 0)).sum

/-- Live slots as pairs of engine and slot. -/
def liveSlots (d : Dev) : List (Nat × Nat) :=
  (List.range 4).flatMap (fun e => ((List.range 16).filter (d.slotLive e)).map (fun s => (e, s)))

/-- Bytes of the result frame of a slot bound to furrow `f`: header, result, chain trailer, FCS (R427).
DEDUCED, log entry 64. -/
def resultFrame (d : Dev) (s : PSlot) (f : Nat) : Nat :=
  let o := d.furrow (d.furrow f).out
  o.hlen + s.rlenN + 4 + (if o.chainOn then 8 else 0)

/-- Buffers of the engine's other slots that are not EMPTY. -/
def otherBufs (d : Dev) (e s : Nat) : List (Nat × Nat) :=
  ((List.range 16).filter (fun q => q != s && (d.pslot e q).st != .empty)).flatMap (fun q => (d.pslot e q).bufs)

/-- The RANGE check (R249 reason 0x6, R244, R250). DEDUCED, log entry 62. -/
def admitRangeBad (d : Dev) (e s : Nat) : Bool :=
  let x := d.pslot e s
  let oth := d.otherBufs e s
  let hit (a b : Nat × Nat) : Bool := overlaps a.1 a.2 b.1 b.2
  x.bufs.any (fun b => decide (0x40_0000 < b.1 + b.2)) ||
  (x.bufs.take 2).any (fun w => (x.bufs.drop 2 ++ oth).any (hit w)) ||
  (List.range x.nseed).any (fun j =>
    let y := x.dwords j
    (pisteUnused y).any (· != 0) ||
    (rangesOf y false).any (fun (p : Role × Nat × Nat) =>
      let n := if y.len = 0 then 0 else p.2.2
      pisteRangeBad x p.2.1 n ||
      (p.1.isDst && fld p.2.1 23 22 == 0 && oth.any (hit (fld p.2.1 21 0, n)))))

/-- The checks of R249 in order: the REASON, failing descriptor and FCODE; reason 0 admits.
DEDUCED, log entries 61 and 64. -/
def admitCheck (d : Dev) (e s f : Nat) : Nat × Nat × Nat :=
  let x := d.pslot e s
  let fu := d.furrow f
  let o := d.furrow fu.out
  let bad := (List.range x.nseed).findSome? (fun j =>
    let c := pisteDesc (x.dwords j)
    if c ≠ 0 then some (j, c)
    else if pisteOverlap x (x.dwords j) false || pisteOverlap x (x.dwords j) true then some (j, 0x06) else none)
  let sum := x.cost + d.admittedCycles e
  let outs := ((d.liveSlots.filter (fun p => d.slotPort p.1 p.2 / 2 == o.portNo / 2)).map (fun p =>
    (d.furrow (d.pslot p.1 p.2).furrow).out)).eraseDups
  let load := ((d.liveSlots.filter (fun p => d.slotPort p.1 p.2 == o.portNo)).map (fun p =>
    max 64 (d.resultFrame (d.pslot p.1 p.2) (d.pslot p.1 p.2).furrow) + 20)).sum + max 64 (d.resultFrame x f) + 20
  if !d.domOn (pisteDom e) || (d.furrowDoms f).any (fun k => !d.domOn k) then (1, 0, 0)
  else if d.slotLive e s then (2, 0, 0)
  else if !fu.piste || fu.form != 0 || fu.eng != e || fu.slot != s ||
    d.liveSlots.any (fun p => (d.pslot p.1 p.2).furrow == f) then (3, 0, 0)
  else if x.wlenN = 0 || decide (8192 < x.wlenN) || x.wlenN != fu.wb || decide (1518 < d.resultFrame x f) ||
    decide (16 < x.nseed) || decide (fu.wper < 25) then (4, 0, 0)
  else match bad with
    | some (j, c) => (5, j, c)
    | none =>
      if d.admitRangeBad e s then (6, 0, 0)
      else if 1024 < x.cost then (7, 0, 0)
      else if (if Config.speed15 then 16384 else 12800) < sum then (8, 0, 0)
      else if 16 ≤ outs.length then (9, 0, 0)
      else if !d.portExpress o.portNo || decide (2000 * rateOf (fld (d.portCfg o.portNo) 30 28) < load * 8) then (10, 0, 0)
      else (0, 0, 0)

/-- A write of ADMIT = 1 (R249, R262, R263): a failed check writes REFUSED and the REASON, SLOT_BUSY too; a slot
admitted while a condition of R262 holds is void from the start. DEDUCED, log entry 61. -/
def pisteAdmit (d : Dev) (e s f : Nat) : Dev :=
  let x := d.pslot e s
  let (r, j, c) := d.admitCheck e s f
  if r = 0 then
    let d := (d.setPslot e s { x with st := .admitted, reason := 0, failJ := 0, fcode := 0, cycles := x.cost, furrow := f,
                                      cur := false, wbusy0 := false, wbusy1 := false }).setObj 0x5105 (1 + 16 * e + s) 0
    d.voidSlots (fun e' s' => e' == e && s' == s && d.voidNow e s)
  else d.setPslot e s { x with st := .refused, reason := BitVec.ofNat 4 r, failJ := BitVec.ofNat 4 j, fcode := BitVec.ofNat 6 c }

/-- A write of ADMIT = 0 (R252). -/
def pisteWithdraw (d : Dev) (e s : Nat) : Dev :=
  let x := d.pslot e s
  match x.st with
  | .admitted => d.setPslot e s { x with st := .withdrawing }
  | .refused => d.setPslot e s { x with st := .empty }
  | _ => d

/-- 0x5100: the slot's admit object (R248). -/
def admitWrite (d : Dev) (k v : Nat) : WRes :=
  let e := (k - 1) / 16
  let s := (k - 1) % 16
  need (fld v 30 12 == 0) .range <|
  let d := d.setObj 0x5100 k v
  .ok (if bitN v 31 then d.pisteAdmit e s (fld v 11 0) else d.pisteWithdraw e s)

/-- Nothing of a slot is in delivery, queued, running, or waiting to be sent (R252). -/
def slotDrained (d : Dev) (e s : Nat) : Bool :=
  let x := d.pslot e s
  let g := d.engine e
  !x.wbusy0 && !x.wbusy1 && g.queue.all (fun r => r.slot != s) && g.running.all (fun r => r.slot != s) &&
  g.done.all (fun r => r.slot != s) &&
  d.ports.all (fun p => p.2.express.all (fun q => !(q.engine == e && q.slot == s)))

/-- PISTE_WITHDRAW_COMPLETE (R252). -/
def pisteWithdrawDone (d : Dev) (e s : Nat) : Dev :=
  let x := d.pslot e s
  if x.st == .withdrawing && d.slotDrained e s then d.setPslot e s { x with st := .empty } else d

/-! The deadline monitor (R264, R265). -/

/-- The Almanac unit of an engine's monitor. -/
def monitorUnit (d : Dev) (e : Nat) : Option Nat := let u := d.obj 0x5108 (e + 1); if u < 8 then some u else none

/-- Sets the unit to the earliest pending deadline, in compare-once mode, or off. DEDUCED, log entry 68. -/
def loadMonitor (d : Dev) (e : Nat) : Dev :=
  match d.monitorUnit e with
  | none => d
  | some u =>
    let x := d.ccUnit u
    d.setUnit u (match (d.engine e).deadlines.map PDeadline.at_ with
      | [] => { x with cfg := 0 }
      | t :: ts =>
        let m := ts.foldl min t
        { x with cfg := 2, fired := false, time0 := BitVec.ofNat 64 (m % 10 ^ 9 * 2 ^ 32), time1 := BitVec.ofNat 64 (m / 10 ^ 9) })

/-- Removes the deadline of a run. -/
def dropDeadline (d : Dev) (e s : Nat) (buf : Bool) : Dev :=
  let x := d.engine e
  (d.setEngine e { x with deadlines := x.deadlines.filter (fun p => !(p.slot == s && p.buf == buf)) }).loadMonitor e

/-- Counts a miss of a slot (0x5107). -/
def countMiss (d : Dev) (e s : Nat) : Dev := d.bumpBy 0x5107 (1 + 16 * e + s) 1 max64

/-- The FV96 decides that a run's result will not be sent (R263, R265). -/
def noResult (d : Dev) (e : Nat) (r : PRun) : Dev :=
  let d := if d.obj 0x5106 (1 + 16 * e + r.slot) != 0 && !r.missed then d.countMiss e r.slot else d
  d.dropDeadline e r.slot r.buf

/-- Marks the runs of missed deadlines wherever they stand, so that none is counted twice. -/
def markMissed (d : Dev) (e : Nat) (ps : List PDeadline) : Dev :=
  let hit (s : Nat) (b : Bool) : Bool := ps.any (fun p => p.slot == s && p.buf == b)
  let f (r : PRun) : PRun := if hit r.slot r.buf then { r with missed := true } else r
  let x := d.engine e
  let d := d.setEngine e { x with queue := x.queue.map f, running := x.running.map f, done := x.done.map f }
  { d with
    ports := d.ports.map (fun p => (p.1, { p.2 with express := p.2.express.map (fun q =>
      if q.engine == e && hit q.slot q.buf then { q with missed := true } else q) }))
    furrows := d.furrows.map (fun p => (p.1, { p.2 with wins := p.2.wins.map (fun a =>
      if p.2.eng == e && a.closed.isSome && a.buf.any (hit p.2.slot) then { a with late := true } else a) })) }

/-- DEADLINE_MISS: the engine's unit fires (R265, R386). DEDUCED, log entry 68. -/
def deadlineMiss (d : Dev) (e : Nat) : Dev :=
  match d.monitorUnit e with
  | none => d
  | some u =>
    let x := d.engine e
    let late := x.deadlines.filter (fun p => decide (p.at_ ≤ d.mono))
    match late with
    | [] => d
    | q :: qs =>
      let last := qs.foldl (fun (a : PDeadline) b => if a.at_ ≤ b.at_ then b else a) q
      let d := late.foldl (fun d p => d.countMiss e p.slot) d
      let d := d.setOct 0x5109 (e + 1) ([BitVec.ofNat 8 last.slot, BitVec.ofNat 8 (b2n last.buf), 0, 0, 0, 0, 0, 0] ++ toLE 8 last.at_)
      let d := (d.occur (0x578 + e)).markMissed e late
      let y := d.engine e
      let d := d.setEngine e { y with deadlines := y.deadlines.filter (fun p => d.mono < p.at_) }
      let d := d.setUnit u { d.ccUnit u with hit := true }
      (d.occur (0x630 + u)).loadMonitor e

/-- A write of 0x5108 (R264, R387): claims, releases or moves to a unit. -/
def monitorWrite (d : Dev) (e v : Nat) : WRes :=
  let mine := 0x500 + e
  need (v == 0xFF || decide (v < 8)) .range <|
  need (v == 0xFF || d.unitHolder v == 0 || d.unitHolder v == mine) .conflict <|
  let old := d.obj 0x5108 (e + 1)
  let d := (if old < 8 && old != v then d.releaseUnit old else d).setObj 0x5108 (e + 1) v
  .ok (if v = 0xFF then d else (d.setHolder 0xA101 (v + 1) mine).loadMonitor e)

/-! Runs. -/

/-- The last byte of a window in buffer `buf` has arrived (R264, R265): its deadline enters the monitor, where the
slot has one and the engine holds a unit. DEDUCED, log entry 68. -/
def addDeadline (d : Dev) (e s : Nat) (buf : Bool) : Dev :=
  let x := d.engine e
  let dl := d.obj 0x5106 (1 + 16 * e + s)
  if dl = 0 || (d.monitorUnit e).isNone then d
  else (d.setEngine e { x with deadlines := x.deadlines ++ [⟨s, buf, d.mono + dl⟩] }).loadMonitor e

/-- PISTE_WINDOW_QUEUE (R254): a complete window enters its engine's run queue; `late` where its deadline has
been missed already. DEDUCED, log entry 66. -/
def pisteQueue (d : Dev) (e s : Nat) (buf : Bool) (at_ : Nat) (late : Bool) : Dev :=
  let x := d.engine e
  d.setEngine e { x with queue := x.queue ++ [⟨s, buf, at_, false, late⟩] }

/-- PISTE_DISPATCH (R246, R254). DEDUCED, log entries 66 and 67. -/
def pisteDispatch (d : Dev) (e : Nat) : Dev :=
  let x := d.engine e
  if x.running.isSome || d.frozen (48 + e) || !d.domOn (pisteDom e) then d
  else match x.queue with
    | [] => d
    | r :: rest => d.setEngine e { x with running := some r, queue := rest, last := BitVec.ofNat 4 r.slot }

/-- A Piste seed as a link with its store addresses resolved (R244, R245). -/
def pisteLink (s : PSlot) (e : Nat) (buf : Bool) (x : DWords) : Desc :=
  let r (v : Nat) : Nat := storeBase e + (s.resolve buf v).getD 0
  { sid := 0, slot := 0, dva := 0, dpa := 0, ctrl := x.ctrl, len := x.len, prog := 0,
    aAddr := r x.a, bAddr := r x.b, dAddr := r x.d, scalar := x.scalar, scl0 := r x.scl0, xp := r x.xp,
    amode := fld s.cfg.toNat 10 8, ctx := ⟨0, 0, 0, false, false⟩ }

/-- One seed of a program: its effect on the store and its conditions (R245). DEDUCED, log entry 67. -/
def pisteSeed (d : Dev) (e : Nat) (l : Desc) : Dev × Cond :=
  if l.len = 0 then (d, 0)
  else
    let (d, r) := d.runLink { runner := 0, owner := 0, eng := some e } l none 0 l.len none
    let d := r.writes.foldl (fun d (w : Nat × List W8) => (d.memWrite w.1 w.2).1) d
    match r.part with
    | none => (d, r.c)
    | some p =>
      let (v, c) := finishP l.words.td (fSAT l.ctrl) (redKind l.words.op) p
      ((d.memWrite l.dAddr (toLE l.words.td.size v)).1, r.c ||| c)

/-- PISTE_COMMIT (R246, R254, R256): the program has run, its window buffer is released; a run that read an
uncorrectable error sends no result. DEDUCED, log entry 67. -/
def pisteCommit (d : Dev) (e : Nat) : Dev :=
  match (d.engine e).running with
  | none => d
  | some r =>
    if d.frozen (48 + e) then d
    else
      let s := d.pslot e r.slot
      let (d, c) := (List.range s.nseed).foldl (fun (acc : Dev × Cond) j =>
        let (d, c) := acc.1.pisteSeed e (pisteLink s e r.buf (s.dwords j))
        (d, acc.2 ||| c)) (d, 0)
      let x := d.engine e
      let ue := (x.running.map PRun.ue).getD false
      let miss := (x.running.map PRun.missed).getD false
      let r := { r with ue := ue, missed := miss }
      let d := d.setEngine e { x with running := none, done := if ue then x.done else x.done ++ [r] }
      let y := d.pslot e r.slot
      let d := d.setPslot e r.slot { (y.setWbusy r.buf false) with
        runs := y.runs + 1, ue := ue, flags := c &&& 0x7F }
      let d := d.bumpBy 0x5103 (1 + 16 * e + r.slot) 1 max64
      if ue then (d.occur (0x570 + e)).noResult e r else d

/-- An express frame will not be sent (R263, R265, R427): its run counts as a miss, and in C3 of its output furrow
where the port is not UP. -/
def expressLost (d : Dev) (q : ExpFrame) (down : Bool) : Dev :=
  let d := d.noResult q.engine ⟨q.slot, q.buf, q.at_, false, q.missed⟩
  if down then d.modFurrow q.out (·.bump 3 1) else d

/-- EXPRESS_FRAME_SEND (R257, R263, R427): the head of a port's express queue leaves, unless a PAUSE stops it; on a
port that is not UP, or whose transmit SA is spent, it is discarded. Behind the last one the other frames go. -/
def expressSend (d : Dev) (p : Nat) : Dev :=
  let x := d.port p
  match x.express with
  | [] => d.flushHeld p
  | q :: rest =>
    if x.paused && x.st == .up then d
    else
      let d := d.setPort p { x with express := rest }
      let sub := 1 + 16 * q.engine + q.slot
      let lost := !d.portUp p || d.txBlocked p q.bytes
      let down := !d.portUp p
      let d := d.sendFrame p true q.bytes
      if lost then (d.expressLost q down).flushHeld p
      else
        let iv := d.mono - q.at_
        let dl := d.obj 0x5106 sub
        let d := d.setObj 0x5105 sub (min (max (d.obj 0x5105 sub) iv) 0xFFFFFFFF)
        let d := if dl != 0 && decide (dl < iv) && !q.missed then d.countMiss q.engine q.slot else d
        ((d.dropDeadline q.engine q.slot q.buf).modFurrow q.out (fun y => (y.bump 1 1).bump 2 1)).flushHeld p

/-- The express frames of the ports of quad `c` are lost with its domain. -/
def quadExpressLost (d : Dev) (c : Nat) : Dev :=
  [2 * c, 2 * c + 1].foldl (fun d p => (d.port p).express.foldl (fun d q => d.expressLost q true) d) d

/-! The control block (R239-R242). -/

/-- PS_STAT. -/
def psStat (d : Dev) (e s : Nat) : Nat :=
  let x := d.pslot e s
  let nopre := x.st != .empty && x.st != .refused && !(d.port (d.slotPort e s)).preempting
  x.runs.toNat * 2 ^ 16 + b2n x.void_ * 2 ^ 15 + b2n nopre * 2 ^ 14 + b2n x.ue * 2 ^ 13 + x.flags.toNat % 128

/-- PE_RUN. QDEPTH counts the programs that wait, each once. DEDUCED, log entry 171. -/
def peRun (d : Dev) (e : Nat) : Nat :=
  let x := d.engine e
  (x.queue.map PRun.slot).eraseDups.length * 2 ^ 16 + b2n x.running.isSome * 2 ^ 8 + x.last.toNat

/-- A register or descriptor word as read, by its 8-byte offset; `clear` reads PE_ERR with its effect.
DEDUCED, log entry 65. -/
def peRead (d : Dev) (e o : Nat) (clear : Bool) : Dev × Nat :=
  let x := d.engine e
  if o = 0 then (d, e)
  else if o = 0x8 then (d, d.peRun e)
  else if o = 0x10 then
    (if clear then d.setEngine e { x with ce := 0, ue := 0 } else d, x.ce.toNat * 2 ^ 24 + x.ue.toNat * 2 ^ 16)
  else if 0x1000 ≤ o ∧ o < 0x2000 then
    let s := d.pslot e ((o - 0x1000) / 0x100)
    (d, match o % 0x100 with
      | 0x00 => s.cfg.toNat | 0x08 => s.wbuf0.toNat | 0x10 => s.wbuf1.toNat | 0x18 => s.wlen.toNat
      | 0x20 => s.rbuf0.toNat | 0x28 => s.rbuf1.toNat | 0x30 => s.rlen.toNat
      | 0x38 => d.psStat e ((o - 0x1000) / 0x100) | _ => 0)
  else if 0x1_0000 ≤ o ∧ o < 0x1_4000 then
    (d, ((d.pslot e ((o - 0x1_0000) / 0x400)).descs.get 0 (o % 0x400 / 8)).toNat)
  else (d, 0)

/-- PS_CFG as written (R16, R241): a reserved NSEED leaves that field. -/
def psCfg (old v : Nat) : W32 :=
  let n := if fld v 4 0 ≤ 16 then fld v 4 0 else fld old 4 0
  BitVec.ofNat 32 (Nat.land v 0x700 + n)

/-- A write of `size` bytes at offset `o` of engine `e`'s block by an originator that may write (R242):
done, or PISTE_GUARD. DEDUCED, log entry 65. -/
def peWrite (d : Dev) (e o size v : Nat) : Except AccErr Dev :=
  let w : W32 := BitVec.ofNat 32 v
  let r := o - o % 8
  if 0x1000 ≤ o ∧ o < 0x2000 then
    let n := (o - 0x1000) / 0x100
    let s := d.pslot e n
    let field := r % 0x100
    if field = 0x38 then
      if o % 8 = 0 && bitN v 15 then .ok (d.setPslot e n { s with void_ := d.slotLive e n && d.voidNow e n })
      else if d.slotLive e n then .error .pisteGuard
      else .ok d
    else if 0x40 ≤ field then .ok d
    else if d.slotLive e n then .error .pisteGuard
    else if o % 8 ≠ 0 then .ok d
    else .ok (d.setPslot e n (match field with
      | 0x00 => { s with cfg := psCfg s.cfg.toNat v }
      | 0x08 => { s with wbuf0 := w &&& 0x3FFF00 }
      | 0x10 => { s with wbuf1 := w &&& 0x3FFF00 }
      | 0x18 => { s with wlen := w &&& 0x3FFF }
      | 0x20 => { s with rbuf0 := w &&& 0x3FFF00 }
      | 0x28 => { s with rbuf1 := w &&& 0x3FFF00 }
      | _ => { s with rlen := w &&& 0x7FF }))
  else if 0x1_0000 ≤ o ∧ o < 0x1_4000 then
    let n := (o - 0x1_0000) / 0x400
    if d.slotLive e n then .error .pisteGuard
    else if size ≠ 8 then .error .devAccess
    else
      let s := d.pslot e n
      .ok (d.setPslot e n { s with descs := s.descs.set 0 (o % 0x400 / 8) (BitVec.ofNat 64 v) })
  else .ok d

/-! Objects of the engines (R248). -/

/-- 0x5000. -/
def engineState (d : Dev) (e : Nat) : Nat := if !d.domOn (pisteDom e) then 0 else if d.armed e then 2 else 1

/-- 0x5101. -/
def slotStatus (d : Dev) (k : Nat) : Nat :=
  let s := d.pslot ((k - 1) / 16) ((k - 1) % 16)
  s.st.code * 2 ^ 28 + s.reason.toNat * 2 ^ 24 + s.failJ.toNat * 2 ^ 20 + s.fcode.toNat * 2 ^ 14 + s.cycles % 2 ^ 11

/-- The engine's domain leaves ON (R253, R508): its slots are EMPTY, no result of them is sent, and its
unit is free. -/
def engineCold (d : Dev) (e : Nat) : Dev :=
  let d := match d.monitorUnit e with
    | some u => d.releaseUnit u
    | none => d
  let d := d.setEngine e {}
  { d with ports := d.ports.map (fun p => (p.1, { p.2 with express := p.2.express.filter (fun q => q.engine != e) })) }

end Dev
end Sys2Proof.Machine
end

