-- ==== Sys2Proof/Machine/Furrow.lean ====
section
/-! DEFINITION. Furrows: registers, enabling, classification, window assembly, delivery through the port
engine's ingress buffer, completion, timeouts, release (R409-R436, R258). -/

namespace Sys2Proof.Machine

/-- A frame's stream header (R414) with its place. -/
structure StreamHdr where
  stream : Nat
  wseq   : Nat
  woff   : Nat
  last   : Bool
  chk    : Bool
  plen   : Nat
  payload : List W8
  trailer : Option Nat
  deriving DecidableEq, Repr

/-- The stream header at an offset; none where the frame is malformed (R414). DEDUCED, log entry 90. -/
def streamHdr (bs : List W8) (o : Nat) : Option StreamHdr :=
  let h := slice bs o 16
  let flags := ((h[12]?).getD 0).toNat
  let plen := ofBE (slice h 14 2)
  let chk := bitN flags 6
  let last := bitN flags 7
  if h.length < 16 || (h[13]?).getD 0 != 1 || flags % 64 != 0 || (chk && !last) ||
    decide (bs.length < o + 16 + plen + (if chk then 8 else 0)) then none
  else some ⟨ofBE (slice h 0 4), ofBE (slice h 4 4), ofBE (slice h 8 4), last, chk, plen, slice bs (o + 16) plen,
    if chk then some (ofBE (slice bs (o + 16 + plen) 8)) else none⟩

/-- One choice of a deficit round robin (R429): `heads` gives each key in rotation order with its quantum
and the size of the item at its head. DEDUCED, log entry 97. -/
def drrPick : Nat → Drr → List (Nat × Nat × Nat) → Drr × Option Nat
  | 0, s, _ => (s, none)
  | fuel + 1, s, heads =>
    match heads with
    | [] => (s, none)
    | h0 :: _ =>
      let h := (heads.find? (fun h => h.1 == s.turn)).getD h0
      let have_ := s.defs.get 0 h.1
      if h.2.2 ≤ have_ && h.1 == s.turn then ({ s with defs := s.defs.put h.1 (have_ - h.2.2) }, some h.1)
      else
        let nxt := (heads.find? (fun g => decide (s.turn < g.1))).getD h0
        drrPick fuel { turn := nxt.1, defs := s.defs.put nxt.1 (s.defs.get 0 nxt.1 + max nxt.2.1 1) } heads

/-- Turns that always reach a choice: enough for every key's deficit to cover its head. -/
def drrFuel (heads : List (Nat × Nat × Nat)) : Nat :=
  (heads.map (fun h => h.2.2 / max h.2.1 1 + 2)).foldl max 0 * (heads.length + 1) + 1

/-- Chooses among keys; a key with nothing waiting holds no deficit. -/
def drr (s : Drr) (heads : List (Nat × Nat × Nat)) : Drr × Option Nat :=
  drrPick (drrFuel heads) { s with defs := s.defs.filter (fun p => heads.any (fun h => h.1 == p.1)) } heads

namespace Dev

/-! Context and runtime registers (R410-R412, R436). -/

/-- A context word as written: reserved fields stay 0, a reserved encoding leaves its field (R16).
DEDUCED, log entry 93. -/
def ctxWord (i old v : Nat) : Nat :=
  let keep (hi lo : Nat) (bad : Nat → Bool) (v : Nat) : Nat := if bad (fld v hi lo) then putFld v hi lo (fld old hi lo) else v
  match i with
  | 0 => keep 61 60 (· == 3) (putFld v 62 62 0)
  | 1 => keep 63 62 (· == 3) (keep 61 60 (· == 3) (putFld (putFld v 53 52 0) 34 32 0))
  | 2 => keep 63 60 (fun n => decide (13 ≤ n)) (putFld v 59 56 0)
  | 3 => fld v 45 6 * 64
  | 4 => fld v 45 5 * 32
  | 5 => fld v 47 0
  | 6 => fld v 59 48 * 2 ^ 48 + fld v 47 40 * 2 ^ 40 + fld v 15 0
  | _ => 0

/-- A runtime register as read. -/
def furRead (x : Furrow) (o : Nat) : Nat :=
  match o with
  | 0x00 => b2n x.badrel * 32 + b2n x.err * 16 + b2n x.assembling.isSome * 8 + x.st.code
  | 0x08 => x.P.toNat
  | 0x10 => x.Q.toNat
  | 0x18 => x.E.toNat
  | 0x20 => x.chain.toNat
  | 0x28 => x.errw.toNat
  | 0x30 => (x.assembling.map (fun a => a.bytes * 2 ^ 32 + a.wseq)).getD 0
  | _ => 0

/-- Records a failed delivery or fetch (R416, R436): FR_ERR, and source 0x600 + PORT at most once per ms. -/
def furErr (d : Dev) (f : Nat) (code pa : Nat) : Dev :=
  let d := d.modFurrow f (fun x => { x with err := true, errw := BitVec.ofNat 64 (code * 2 ^ 56 + pa % 2 ^ 46) })
  let p := (d.furrow f).portNo
  if onePerMs d.mono (d.port p).errAt then (d.modPort p (fun x => { x with errAt := some d.mono })).occur (0x600 + p) else d

/-- A release (R419): between 1 and P - Q slots, or ignored with BADREL. -/
def release (x : Furrow) (q : Nat) : Furrow :=
  let n := (q + 2 ^ 32 - x.Q.toNat) % 2 ^ 32
  if 1 ≤ n ∧ n ≤ (x.P - x.Q).toNat then { x with Q := BitVec.ofNat 32 q } else { x with badrel := true }

/-- A post (R425): between 1 and NSLOT slots past those sent, not below the last post count. -/
def post (d : Dev) (f q : Nat) : Dev :=
  let x := d.furrow f
  let n := (q + 2 ^ 32 - x.P.toNat) % 2 ^ 32
  if 1 ≤ n && decide (n ≤ x.nslot) && decide ((x.Q - x.P).toNat ≤ n) then
    let more := n - (x.Q - x.P).toNat
    let d := d.setFurrow f ({ x with Q := BitVec.ofNat 32 q }.bump 0 more)
    let g := d.peng (f / 512)
    if x.cls = 1 then d.setPeng (f / 512) { g with posts := g.posts ++ List.replicate more f } else d
  else d.setFurrow f ({ x with badrel := true }.bump 5 1)

/-- FR_REL of a furrow: a post of an output furrow, a release of the others. -/
def relWrite (d : Dev) (f q : Nat) : Dev :=
  if (d.furrow f).form = 2 then d.post f q else d.modFurrow f (release · q)

/-- A write of `size` bytes to a furrow's context word, runtime register or counter: `set` 0, 1, 2. -/
def furWrite (d : Dev) (set f o size v : Nat) : Except AccErr Dev :=
  let x := d.furrow f
  let r := o - o % 8
  let lo := o % 8
  if set = 0 then
    if x.st != .disabled then .error .devAccess
    else
      let i := r / 8
      .ok (d.setFurrow f { x with ctx := x.ctx.set 0 i (BitVec.ofNat 64 (ctxWord i (x.w i) (Cvu.mergeReg (x.w i) size lo v))) })
  else if set = 1 then
    match r with
    | 0x00 => .ok (if lo = 0 then d.setFurrow f { x with badrel := x.badrel && !bitN v 5, err := x.err && !bitN v 4 } else d)
    | 0x10 => .ok (if lo = 0 then d.relWrite f (v % 2 ^ 32) else d)
    | 0x18 => if x.st != .disabled then .error .devAccess
              else .ok (if lo = 0 then d.setFurrow f { x with E := BitVec.ofNat 32 v } else d)
    | 0x20 => if x.st != .disabled then .error .devAccess
              else .ok (d.setFurrow f { x with chain := BitVec.ofNat 64 (Cvu.mergeReg x.chain.toNat size lo v) })
    | _ => .ok d
  else .ok d

/-! The ingress buffer (R428, R430). -/

/-- Bytes a class, or a furrow's Standard frames, occupy; frames in flight count until acknowledged. -/
def occupancy (x : PortEng) (p : QFrame → Bool) : Nat :=
  ((x.queue.filter p).map QFrame.size).sum + (((x.inflight.map DWrite.q).filter p).map QFrame.size).sum

/-- The quanta a PFC frame of the model carries: XOFF, and 0 for XON. -/
def pfcQuanta : Nat := 0xFFFF

/-- Sends XOFF or XON for the Bulk priorities of a port (R430). DEDUCED, log entry 97. -/
def pfcSend (d : Dev) (p : Nat) (on : Bool) : Dev :=
  (d.modPort p (fun x => { x with xoff := on })).emit (.pfc p (fld (d.portCfg p) 23 16) (if on then pfcQuanta else 0))

/-- Ports of group `g` that send PFC. -/
def pfcPorts (d : Dev) (g : Nat) : List Nat := [2 * g, 2 * g + 1].filter (fun p => d.portUp p && bitN (d.portCfg p) 24)

/-- Bulk occupancy has risen to the XOFF level, or fallen to the XON level. -/
def pfcCheck (d : Dev) (g : Nat) : Dev :=
  let n := occupancy (d.peng g) (fun q => q.cls == 1)
  (d.pfcPorts g).foldl (fun d p =>
    if !(d.port p).xoff && decide (d.obj 0x3112 (g + 1) ≤ n) then d.pfcSend p true
    else if (d.port p).xoff && decide (n ≤ d.obj 0x3113 (g + 1)) then d.pfcSend p false
    else d) d

/-- PFC_XOFF_REPEAT (R430). -/
def pfcRepeat (d : Dev) (p : Nat) : Dev :=
  if (d.port p).xoff && (d.pfcPorts (p / 2)).contains p then d.pfcSend p true else d

/-! Window assembly (R416, R418, R420, R258). -/

/-- A furrow's window by its number. -/
def winOf (x : Furrow) (id : Nat) : Option Asm := x.wins.find? (fun a => a.id == id)
def putWin (x : Furrow) (a : Asm) : Furrow := { x with wins := x.wins.map (fun b => if b.id = a.id then a else b) }
def dropWin (x : Furrow) (id : Nat) : Furrow := { x with wins := x.wins.filter (fun a => a.id != id) }

/-- A Piste window is discarded: its buffer is free, its deadline is removed, and the discard is counted (R255,
R265). -/
def releaseBuf (d : Dev) (f : Nat) (a : Asm) : Dev :=
  match a.buf with
  | none => d
  | some b =>
    let x := d.furrow f
    let d := if a.closed.isSome then d.dropDeadline x.eng x.slot b else d
    (d.setPslot x.eng x.slot ((d.pslot x.eng x.slot).setWbusy b false)).pisteRefused x.eng x.slot 1

/-- Drops the queued frames of a window. -/
def dropQueued (d : Dev) (f id : Nat) : Dev :=
  let g := f / 512
  let x := d.peng g
  (d.setPeng g { x with queue := x.queue.filter (fun q => !(q.furrow == f && q.win == id)) }).pfcCheck g

/-- Cuts a window short (R416): its frames and `extra` more count in C5, C15 rises, its WSEQ is marked.
DEDUCED, log entry 91. -/
def cutWin (d : Dev) (f : Nat) (a : Asm) (extra : Nat) : Dev :=
  let d := (d.releaseBuf f a).dropQueued f a.id
  d.modFurrow f (fun x => { (((dropWin x a.id).bump 5 (a.frames + extra)).bump 15 1) with marked := some (a.wseq, 5) })

/-- Cuts the window in assembly short, if there is one. -/
def cutAsm (d : Dev) (f extra : Nat) : Dev :=
  match (d.furrow f).assembling with
  | some a => d.cutWin f a extra
  | none => d

/-- Windows that take a ring slot and are not yet completed. DEDUCED, log entry 95. -/
def ringPending (x : Furrow) : Nat := (x.wins.filter (fun a => a.buf.isNone)).length

/-- Whether a ring window may start (R418): OVPOL 1 reclaims the oldest completed slot, writing STALE in
its ledger entry first. DEDUCED, log entry 95. -/
def ringRoom (d : Dev) (f : Nat) : Dev × Bool :=
  let x := d.furrow f
  let used := (x.P - x.Q).toNat
  if used + ringPending x < x.nslot then (d, true)
  else if !x.ovpol || used = 0 then (d, false)
  else
    let pa := x.ledgerPa (x.Q.toNat % x.nslot)
    let (d, r) := d.streamWrite (.port (f / 512) x.piste) (pa + 4) [0x08]
    let d := match r with
      | .error e => d.furErr f e.code (pa + 4)
      | .ok _ => d
    (d.modFurrow f (fun x => { x.bump 14 1 with Q := x.Q + 1 }), true)

/-- A frame is dropped with its whole window: one counter, and the WSEQ marked for the rest. DEDUCED, log entry 91. -/
def dropFirst (d : Dev) (f wseq c : Nat) : Dev := d.modFurrow f (fun x => { x.bump c 1 with marked := some (wseq, c) })

/-- How the first frame of a Piste window stands (R255, R258): a buffer, demotion, or a counter. -/
inductive PisteSays where
  | buffer (b : Bool)
  | demote
  | drop (c : Nat)
  deriving DecidableEq, Repr

/-- DEDUCED, log entries 19 and 92. -/
def pisteContract (d : Dev) (f : Nat) (sfd missed : Nat) : PisteSays :=
  let x := d.furrow f
  let s := d.pslot x.eng x.slot
  let early := match x.prevAt with
    | some t => decide (sfd < t + x.wper * 1000)
    | none => false
  if missed ≠ 0 then .drop 5
  else if !early && decide (x.wb ≤ s.wlenN) && !s.wbusy s.cur then .buffer s.cur
  else if d.obj 0x5102 (1 + 16 * x.eng + x.slot) = 1 then .drop 9
  else if !x.hasRing || (d.pathDoms f true).any (fun k => !d.domOn k) then .drop 8
  else .demote

/-- Starts a window at its first frame: E and C13 have been set (R416). Answers whether it assembles.
DEDUCED, log entries 19 and 92. -/
def startWin (d : Dev) (f wseq sfd missed : Nat) : Dev × Bool :=
  let x := d.furrow f
  let mk (d : Dev) (buf : Option Bool) (dem : Bool) : Dev :=
    d.modFurrow f (fun x => { x with
      nextId := x.nextId + 1, prevAt := some sfd,
      wins := x.wins ++ [{ id := x.nextId, wseq := wseq, firstMono := sfd, missed := missed, buf := buf, demoted := dem }] })
  if x.piste && (d.pslot x.eng x.slot).st != .admitted then
    ((d.pisteRefused x.eng x.slot 1).dropFirst f wseq 3, false)
  else if (d.furrowDoms f).any (fun k => !d.domOn k) then
    let d := if x.piste then d.pisteRefused x.eng x.slot 1 else d
    (d.dropFirst f wseq 8, false)
  else
    let ring (d : Dev) (dem : Bool) : Dev × Bool :=
      match d.ringRoom f with
      | (d, true) => (mk d none dem, true)
      | (d, false) => (d.dropFirst f wseq 7, false)
    if !x.piste then ring d false
    else
      let verdict := d.pisteContract f sfd missed
      let d := d.modFurrow f (fun x => { x with prevAt := some sfd })
      match verdict with
      | .buffer b =>
        let s := d.pslot x.eng x.slot
        (mk (d.setPslot x.eng x.slot (s.setWbusy b true)) (some b) false, true)
      | .drop c =>
        let d := (d.pisteRefused x.eng x.slot 1).dropFirst f wseq c
        (if c = 5 then d.modFurrow f (·.bump 15 1) else d, false)
      | .demote => ring (d.pisteRefused x.eng x.slot 1) true

/-- The class a window's frames wait in: demoted windows are Standard (R258). -/
def winClass (x : Furrow) (a : Asm) : Nat := if a.demoted then 0 else x.cls

/-- Whether a frame has room in the ingress buffer (R428). -/
def queueRoom (d : Dev) (f cls size : Nat) : Bool :=
  let g := d.peng (f / 512)
  let x := d.furrow f
  match cls with
  | 0 => decide (occupancy g (fun q => q.cls == 0) + size ≤ d.obj 0x3110 (f / 512 + 1)) &&
      (x.fqcap == 0 || decide (occupancy g (fun q => q.cls == 0 && q.furrow == f) + size ≤ x.fqcap * 4096))
  | 1 => decide (occupancy g (fun q => q.cls == 1) + size ≤ d.obj 0x3111 (f / 512 + 1))
  | _ => true

/-- Queues a frame for delivery. -/
def enqueue (d : Dev) (q : QFrame) : Dev :=
  let g := q.furrow / 512
  let x := d.peng g
  (d.setPeng g { x with queue := x.queue ++ [q] }).pfcCheck g

/-- The Almanac time `back` ns ago, in the 10-byte form (R594). -/
def almBack (d : Dev) (back : Nat) : Nat :=
  let ns := d.alm.time / 2 ^ 32 - back
  (ns / 10 ^ 9) % 2 ^ 48 + (ns % 10 ^ 9) * 2 ^ 48

/-- Nanoseconds from a frame's SFD to the last byte of its FCS at the port's rate. -/
def frameNs (d : Dev) (p : Nat) (bs : List W8) : Nat :=
  let r := rateOf (fld (d.portCfg p) 30 28)
  if r = 0 then 0 else (bs.length + 4) * 8 / r

/-- One stream frame of an ENABLED window furrow (R416). DEDUCED, log entry 91. -/
def streamFrame (d : Dev) (f : Nat) (h : StreamHdr) (size ns : Nat) : Dev :=
  let x := d.furrow f
  match x.marked with
  | some (w, c) =>
    if w = h.wseq then d.modFurrow f (·.bump c 1)
    else go (d.modFurrow f (fun x => { x with marked := none }))
  | none => go d
where
  /-- The window has started: the frame is placed, or cuts it short. -/
  place (d : Dev) : Dev :=
    let x := d.furrow f
    match x.assembling with
    | none => d
    | some a =>
      if h.woff ≠ a.bytes ∨ x.wb < a.bytes + h.plen then d.cutWin f a 1
      else
        let cls := winClass x a
        if !d.queueRoom f cls size then (d.cutWin f a 0).modFurrow f (·.bump 6 1)
        else
          let d := d.enqueue ⟨f, a.id, cls, h.woff, h.payload, size⟩
          let a := { a with bytes := a.bytes + h.plen, frames := a.frames + 1 }
          if !h.last then d.modFurrow f (putWin · a)
          else if a.bytes ≠ x.wb then d.cutWin f a 0
          else
            let d := match a.buf with
              | some b => (d.setPslot x.eng x.slot { d.pslot x.eng x.slot with cur := !b }).addDeadline x.eng x.slot b
              | none => d
            let c : Closed := { at_ := d.alm10, mono := d.mono, span := d.mono - a.firstMono, trailer := h.trailer }
            d.modFurrow f (putWin · { a with closed := some c })
  /-- The frame's WSEQ is not marked. -/
  go (d : Dev) : Dev :=
    let d := match (d.furrow f).assembling with
      | some a => if a.wseq ≠ h.wseq then d.cutWin f a 0 else d
      | none => d
    let x := d.furrow f
    if x.assembling.isSome then place d
    else
      let age := (x.E.toNat + 2 ^ 32 - h.wseq) % 2 ^ 32
      if x.seqen && !x.resync && decide (1 ≤ age) && decide (age ≤ 2 ^ 31) then d.modFurrow f (·.bump 4 1)
      else if h.woff ≠ 0 then d.dropFirst f h.wseq 5
      else
        let e := if x.resync then h.wseq else x.E.toNat
        let missed := if x.seqen then (h.wseq + 2 ^ 32 - e) % 2 ^ 32 else 0
        let d := if x.seqen then d.modFurrow f (fun x => { x.bump 13 missed with E := BitVec.ofNat 32 (h.wseq + 1), resync := false })
                 else d.modFurrow f (fun x => { x with resync := false, E := if x.resync then BitVec.ofNat 32 h.wseq else x.E })
        match d.startWin f h.wseq (d.mono - ns) missed with
        | (d, true) => place d
        | (d, false) => d

/-- One frame of a frame-record furrow (R424). DEDUCED, log entry 96. -/
def recordFrame (d : Dev) (f p : Nat) (bs : List W8) (tagged sec : Bool) (ns : Nat) : Dev :=
  let x := d.furrow f
  if x.wb < 32 + bs.length then d.modFurrow f (·.bump 5 1)
  else if (d.furrowDoms f).any (fun k => !d.domOn k) then d.modFurrow f (·.bump 8 1)
  else if !d.queueRoom f x.cls bs.length then d.modFurrow f (·.bump 6 1)
  else match d.ringRoom f with
    | (d, false) => d.modFurrow f (·.bump 7 1)
    | (d, true) =>
      let hdr := toLE 10 (d.almBack ns)
      let rec_ := slice hdr 0 6 ++ [0, 0] ++ slice hdr 6 4 ++ toLE 4 ns ++ toLE 2 bs.length ++
        [BitVec.ofNat 8 p, BitVec.ofNat 8 (b2n tagged + 2 * b2n sec)] ++ List.replicate 12 0 ++ bs
      let c : Closed := { at_ := d.alm10, mono := d.mono, span := ns, trailer := none }
      let id := (d.furrow f).nextId
      let d := d.modFurrow f (fun x => { x with
        nextId := id + 1,
        wins := x.wins ++ [{ id := id, wseq := 0, bytes := rec_.length, frames := 1, firstMono := d.mono - ns, closed := some c }] })
      d.enqueue ⟨f, id, x.cls, 0, rec_, bs.length⟩

/-! Classification (R415). -/

/-- Whether furrow `f` of port `p` matches a frame; for FORM 0 with its stream header. -/
def furMatches (x : Furrow) (p : Nat) (bs : List W8) : Bool :=
  x.enabledSt && decide (x.form ≤ 1) && x.portNo == p &&
  (!x.vlen || vlanOf bs == some x.vid) &&
  (match frameKey bs x.kind with
    | some (tp, o) => tp == x.typeport &&
        (x.form == 1 || (match streamHdr bs o with | some h => h.stream == x.stream | none => false))
    | none => false)

/-- A window furrow's key names this frame a stream frame, and it is malformed (R414). DEDUCED, log entry 90. -/
def malformed (d : Dev) (p : Nat) (bs : List W8) : Bool :=
  d.furrows.any (fun y => let x := y.2
    x.enabledSt && x.form == 0 && x.portNo == p && (!x.vlen || vlanOf bs == some x.vid) &&
    (match frameKey bs x.kind with
      | some (tp, o) => tp == x.typeport && (streamHdr bs o).isNone
      | none => false))

/-- The matching furrow: VLEN 1 before VLEN 0, then the lowest. -/
def furMatch (d : Dev) (p : Nat) (bs : List W8) : Option Nat :=
  let ms := d.furrows.filter (fun y => y.1 / 512 == p / 2 && furMatches y.2 p bs)
  match ms.find? (fun y => y.2.vlen) with
  | some y => some y.1
  | none => ms.head?.map Prod.fst

/-- A frame that is for furrows: drop, assembly or record. DEDUCED, log entry 90. -/
def furrowFrame (d : Dev) (p : Nat) (bs : List W8) (sec : Bool) : Dev :=
  if d.malformed p bs then d.countClass p 2
  else match d.furMatch p bs with
  | none => d.countClass p 1
  | some f =>
    let d := (d.countClass p 0).modFurrow f (·.bump 0 1)
    let x := d.furrow f
    let e := d.partner x.partner
    let ns := d.frameNs p bs
    if !x.anysrc && (e.st != 1 || e.mac != ofBE (slice bs 6 6) || e.port != p) then d.modFurrow f (·.bump 2 1)
    else if x.st != .enabled then d.modFurrow f (·.bump 3 1)
    else if x.form = 1 then d.recordFrame f p bs (vlanOf bs).isSome sec ns
    else match (frameKey bs x.kind).bind (fun k => streamHdr bs k.2) with
      | none => d
      | some h =>
        if x.piste && (d.pslot x.eng x.slot).st != .admitted && x.assembling.isNone then
          let d := if x.marked.map Prod.fst == some h.wseq then d else d.pisteRefused x.eng x.slot 1
          d.dropFirst f h.wseq 3
        else d.streamFrame f h bs.length ns

/-! Delivery (R428, R429). -/

/-- The furrow's oldest window is the one whose frames may be written now. -/
def deliverableQ (d : Dev) (q : QFrame) : Bool :=
  match (d.furrow q.furrow).wins with
  | a :: _ => a.id == q.win
  | [] => false

/-- The frame that delivery serves next: Piste first, then the classes by deficit round robin, Standard by
furrow, Bulk in arrival order. -/
def pickFrame (d : Dev) (g : Nat) : PortEng × Option QFrame :=
  let x := d.peng g
  let qs := x.queue.filter d.deliverableQ
  match qs.find? (fun q => q.cls == 2) with
  | some q => (x, some q)
  | none =>
    let std := qs.filter (fun q => q.cls == 0)
    let furs := (std.foldl (fun (m : SMap Unit) q => m.put q.furrow ()) []).map Prod.fst
    let fheads := furs.filterMap (fun f => (std.find? (fun q => q.furrow == f)).map (fun q =>
      (f, (d.furrow f).quant * 64, q.size)))
    let bulk := qs.find? (fun q => q.cls == 1)
    let quanta := d.obj 0x3114 (g + 1)
    let (fs, pick) := drr x.furIn fheads
    let sq := pick.bind (fun f => std.find? (fun q => q.furrow == f))
    let cheads := (match sq with | some q => [(0, fld quanta 15 8 * 1024, q.size)] | none => []) ++
      (match bulk with | some q => [(1, fld quanta 7 0 * 1024, q.size)] | none => [])
    match drr x.clsIn cheads with
    | (cs, some 0) => ({ x with clsIn := cs, furIn := fs }, sq)
    | (cs, some _) => ({ x with clsIn := cs }, bulk)
    | (_, none) => (x, none)

/-- Where a frame's bytes go: its Piste window buffer, or ring slot P mod NSLOT. -/
def framePa (d : Dev) (q : QFrame) : Nat :=
  let x := d.furrow q.furrow
  match (winOf x q.win).bind Asm.buf with
  | some b => storeBase x.eng + (d.pslot x.eng x.slot).wbuf b + q.off
  | none => x.slotPa (x.P.toNat % x.nslot) + q.off

/-- FRAME_DELIVERY: the scheduler serves one frame; its write is issued. -/
def frameDelivery (d : Dev) (g : Nat) : Dev :=
  if d.frozen (40 + g) then d
  else match d.pickFrame g with
    | (_, none) => d
    | (x, some q) =>
      let pa := d.framePa q
      let d := d.setPeng g { x with queue := x.queue.erase q, inflight := x.inflight ++ [⟨q, pa⟩] }
      d.modFurrow q.furrow (fun x => match winOf x q.win with
        | some a => putWin x { a with pend := a.pend + 1 }
        | none => x)

/-- DELIVERY_WRITE_ACK (R428, R416): the oldest write in flight is performed, or fails at its target. -/
def deliveryAck (d : Dev) (g : Nat) : Dev :=
  let x := d.peng g
  match x.inflight with
  | [] => d
  | w :: rest =>
    let d := d.setPeng g { x with inflight := rest }
    let f := w.q.furrow
    let (d, r) := d.streamWrite (.port g (d.furrow f).piste) w.pa w.q.bytes
    let d := d.modFurrow f (fun x => match winOf x w.q.win with
      | some a => putWin x { a with pend := a.pend - 1 }
      | none => x)
    let d := match r with
      | .ok _ => d
      | .error e =>
        let d := d.furErr f e.code w.pa
        match winOf (d.furrow f) w.q.win with
        | some a => d.cutWin f a 0
        | none => d
    d.pfcCheck g

/-! Completion (R417, R421, R422). -/

/-- A furrow's oldest window, closed and with every write acknowledged. DEDUCED, log entry 95. -/
def readyWin (d : Dev) (f : Nat) : Option (Asm × Closed) :=
  match (d.furrow f).wins with
  | a :: _ =>
    if a.pend = 0 && (d.peng (f / 512)).queue.all (fun q => !(q.furrow == f && q.win == a.id)) then
      a.closed.map (fun c => (a, c))
    else none
  | [] => none

/-- The CVU of a furrow's chain after a fold (R421, R470): loaded from FR_CHAIN and fed a sequence number.
DEDUCED, log entry 101. -/
def foldUnit (d : Dev) (f seq : Nat) : Cvu :=
  let x := d.furrow f
  { d.cvu x.cvu with val := x.chain }.feed (toBE 4 seq)

/-- The fold of a sequence number into a furrow's chain (R421): the CVU's result from FR_CHAIN. -/
def chainFold (d : Dev) (f seq : Nat) : Nat := (d.foldUnit f seq).value

/-- A fold leaves its result in CV_VAL (R470); `v` is what FR_CHAIN holds after it. DEDUCED, log entry 101. -/
def chainSave (d : Dev) (f seq v : Nat) : Dev :=
  (d.setCvu (d.furrow f).cvu (d.foldUnit f seq)).modFurrow f (fun x => { x with chain := BitVec.ofNat 64 v })

/-- The fold's comparison and its effect on FR_CHAIN: whether the trailer agrees. DEDUCED, log entry 101. -/
def chainCheck (d : Dev) (f seq : Nat) (trailer : Option Nat) : Dev × Bool :=
  if !(d.furrow f).chainOn then (d, true)
  else
    let w := (d.cvu (d.furrow f).cvu).width
    let r := d.chainFold f seq
    let ok := match trailer with
      | some t => t % 2 ^ w == r % 2 ^ w
      | none => false
    (d.chainSave f seq (trailer.getD r), ok)

/-- A chain fold can run: the unit's domain is ON and it is not frozen. DEDUCED, log entries 101 and 116. -/
def chainReady (d : Dev) (f : Nat) : Bool :=
  let x := d.furrow f
  !x.chainOn || (d.domOn 75 && !d.frozen x.cvu && (d.cvu x.cvu).att.isNone)

/-- A window is discarded for a chain mismatch (R422). -/
def chainDrop (d : Dev) (f : Nat) (a : Asm) : Dev :=
  (d.releaseBuf f a).modFurrow f (fun x => ((dropWin x a.id).bump 11 a.frames).bump 15 1)

/-- The ledger entry of a completed window (R417). -/
def ledgerEntry (x : Furrow) (f wseq : Nat) (a : Asm) (c : Closed) (bad : Bool) : List W8 :=
  let flags := 1 + 2 * b2n (a.missed != 0) + 4 * b2n bad + 16 * b2n a.demoted
  toLE 4 wseq ++ [BitVec.ofNat 8 flags, BitVec.ofNat 8 x.portNo] ++ toLE 2 f ++ toLE 8 (c.at_ % 2 ^ 48) ++
  toLE 4 (c.at_ / 2 ^ 48) ++ toLE 4 (min c.span 0xFFFFFFFF) ++ toLE 6 x.entry ++ toLE 2 (min a.missed 0xFFFF)

/-- WINDOW_COMPLETE (R417): a ring window writes its ledger entry, P advances, SRC is raised.
DEDUCED, log entries 95 and 96. -/
def windowComplete (d : Dev) (f : Nat) : Dev :=
  match d.readyWin f with
  | none => d
  | some (a, c) =>
    if a.buf.isSome || d.frozen (40 + f / 512) || !d.chainReady f then d
    else
      let (d, ok) := d.chainCheck f a.wseq c.trailer
      let x := d.furrow f
      if !ok && !x.chkpol then d.chainDrop f a
      else
        let pa := x.ledgerPa (x.P.toNat % x.nslot)
        let wseq := if x.form = 1 then (x.P.toNat + 1) % 2 ^ 32 else a.wseq
        match d.streamWrite (.port (f / 512) x.piste) pa (ledgerEntry x f wseq a c (!ok)) with
        | (d, .error e) => (d.furErr f e.code pa).cutWin f a 0
        | (d, .ok _) =>
          (d.modFurrow f (fun x => { ((dropWin x a.id).bump (if a.demoted then 10 else 1) a.frames).bump 12 1 with
            P := x.P + 1 })).occur x.src

/-- PISTE_WINDOW_QUEUE (R254): a complete Piste window whose data are in the store enters the run queue.
DEDUCED, log entries 66 and 100. -/
def pisteWindow (d : Dev) (f : Nat) : Dev :=
  match d.readyWin f with
  | none => d
  | some (a, c) =>
    match a.buf with
    | none => d
    | some b =>
      if d.frozen (40 + f / 512) || !d.chainReady f then d
      else
        let (d, ok) := d.chainCheck f a.wseq c.trailer
        let x := d.furrow f
        if !ok && !x.chkpol then d.chainDrop f a
        else (d.modFurrow f (fun x => ((dropWin x a.id).bump 1 a.frames).bump 12 1)).pisteQueue x.eng x.slot b c.mono a.late

/-- WINDOW_TIMEOUT (R420): on a tick of the group's unit, a window in assembly whose WTO has passed. -/
def windowTimeout (d : Dev) (f : Nat) : Dev :=
  let x := d.furrow f
  match x.assembling with
  | none => d
  | some a =>
    if x.wto != 0 && d.obj 0x3120 (f / 512 + 1) != 0xFF && !d.frozen (40 + f / 512) &&
      decide (a.firstMono + x.wto * 1000 ≤ d.mono) then d.cutWin f a 0 else d

/-- A domain leaves ON: the windows that need it are cut short (R416). -/
def furrowsLose (d : Dev) (k : Nat) : Dev :=
  (d.furrows.map Prod.fst).foldl (fun d f =>
    ((d.furrow f).wins.filter (fun a => (d.winDoms f a).contains k)).foldl (fun d a => d.cutWin f a 0) d) d

/-! Commands (R434, R435). -/

/-- The FIELD checks of ENABLE (R412, R413). DEDUCED, log entry 93. -/
def fieldsOk (x : Furrow) (g : Nat) : Bool :=
  let rows := x.ctx.all (fun p => ctxWord p.1 0 p.2.toNat == p.2.toNat)
  let cls := match x.cls with
    | 0 => x.quant != 0 && x.eng == 0 && x.slot == 0 && x.wper == 0
    | 1 => x.quant == 0 && x.fqcap == 0 && x.eng == 0 && x.slot == 0 && x.wper == 0
    | 2 => x.quant == 0 && x.fqcap == 0 && x.form != 1
    | _ => false
  let form := match x.form with
    | 0 => !x.anysrc && x.hlen == 0 && (x.wtype != 2 || x.welem % 32 == 0) && (x.wtype != 12 || x.welem % 8 == 0)
    | 1 => x.stream == 0 && !x.seqen && !x.chainOn && !x.chkpol && !x.losskeep && x.wtype == 0 && x.hlen == 0 && x.wto == 0
    | 2 => x.fqcap == 0 && x.wper == 0 && x.typeport == 0 && x.stream == 0 && x.vid == 0 && !x.seqen && !x.chkpol &&
        !x.ovpol && !x.losskeep && !x.anysrc &&
        x.partner == 0 && x.src == 0 && x.wtype == 0 && x.wto == 0 && x.entry % 64 == 0 && x.out == 0 &&
        decide (14 ≤ x.hlen) && decide (x.hlen ≤ 96)
    | _ => false
  rows && cls && form && (x.chainOn || x.cvu == 0) && decide (x.wtype < 13) && x.kind != 3 &&
  x.portNo / 2 == g && decide (1 ≤ x.wb) && decide (x.wb ≤ 2 ^ 26)

/-- The ring and ledger of a furrow as physical ranges. -/
def furRanges (x : Furrow) : List (Nat × Nat) :=
  if x.hasRing then [(x.ring, x.nslot * x.stride), (x.ledger, 32 * x.nslot)] else []

/-- A range that lies wholly in the Loam window or one Granary window. -/
def inMemory (a n : Nat) : Bool :=
  let w := window a
  decide (1 ≤ w) && decide (w ≤ 6) && window (a + n - 1) == w

/-- The REASON that refuses ENABLE (R434); 0 for none. -/
def enableCheck (d : Dev) (f : Nat) : Nat :=
  let x := d.furrow f
  let g := f / 512
  let others := d.furrows.filter (fun y => y.1 != f && y.2.enabledSt)
  let key (x : Furrow) : Nat × Nat × Nat × Nat × Bool × Nat :=
    (x.portNo, x.kind, x.typeport, x.stream, x.vlen, if x.vlen then x.vid else 0)
  let o := d.furrow x.out
  if x.st != .disabled then 1
  else if !fieldsOk x g then 2
  else if (furRanges x).any (fun r => !inMemory r.1 r.2 ||
    others.any (fun y => (furRanges y.2).any (fun q => overlaps r.1 r.2 q.1 q.2))) then 3
  else if x.form ≤ 1 && others.any (fun y => y.1 / 512 == g && decide (y.2.form ≤ 1) && key y.2 == key x) then 4
  else if x.chainOn && d.cvuHolder x.cvu != 0x400 + g then 5
  else if x.wto != 0 && d.obj 0x3120 (g + 1) = 0xFF then 6
  else if x.form = 0 && x.piste && !(o.form == 2 && o.piste && d.portExpress o.portNo) then 7
  else if x.form ≤ 1 && x.out != 0 && o.form != 2 then 7
  else 0

/-- Starts a DISABLE (R434): queued frames count in C3, the window in assembly is cut short. DEDUCED, log entry 94. -/
def furDisable (d : Dev) (f : Nat) : Dev :=
  let x := d.furrow f
  if !x.enabledSt then d
  else
    let g := d.peng (f / 512)
    let d := d.modFurrow f (fun x => { x with st := .disabling })
    x.wins.foldl (fun d a =>
      let n := (g.queue.filter (fun q => q.furrow == f && q.win == a.id)).length
      if a.closed.isSome && n = 0 then d
      else
        let d := d.cutWin f { a with frames := a.frames - n } 0
        d.modFurrow f (·.bump 3 n)) d

/-- FURROW_DISABLE_COMPLETE: no write in flight is left. DEDUCED, log entry 94. -/
def furDisabled (d : Dev) (f : Nat) : Dev :=
  let x := d.furrow f
  if x.st == .disabling && x.wins.isEmpty && (d.peng (f / 512)).inflight.all (fun w => w.q.furrow != f) then
    d.setFurrow f { x with st := .disabled, marked := none }
  else d

/-- 0x3101 after a command. -/
def furResult (d : Dev) (f r : Nat) : Dev := d.setObj 0x3101 1 (if r = 0 then f else 2 ^ 28 + r * 2 ^ 24 + f)

/-- DISABLE: ended at once where the furrow is not enabled, and else when FURROW_DISABLE_COMPLETE ends it. -/
def furDisableCmd (d : Dev) (f : Nat) : Dev :=
  if (d.furrow f).enabledSt then (d.furDisable f).goesOn (.disable f) else d.furResult f 0

/-- The furrow commands (R434): ENABLE, CLEAR, RESYNC. -/
def furEnable (d : Dev) (f : Nat) : Dev :=
  let r := d.enableCheck f
  let d := if r = 0 then d.modFurrow f (fun x => { x with st := .enabled, marked := none, resync := false, prevAt := none }) else d
  d.furResult f r
/-- DEDUCED, log entry 94. -/
def furClear (d : Dev) (f : Nat) : Dev := (d.modFurrow f (fun x => { x with ctr := [], errw := 0 })).furResult f 0
def furResync (d : Dev) (f : Nat) : Dev := (d.modFurrow f (fun x => { x with resync := true })).furResult f 0

/-- A write of 0x3100. DEDUCED, log entry 94. -/
def furCommand (d : Dev) (v : Nat) : WRes :=
  let f := fld v 11 0
  need (fld v 27 12 == 0 && decide (1 ≤ fld v 31 28) && decide (fld v 31 28 ≤ 4)) .range <|
  need (d.domOn (61 + f / 512)) .off <|
  let d := d.setObj 0x3100 1 v
  .ok (match fld v 31 28 with
    | 1 => d.furEnable f
    | 2 => d.furDisableCmd f
    | 3 => d.furClear f
    | _ => d.furResync f)

/-- A write of 0x3120 (R435): the group claims, keeps or releases its Almanac unit, which then runs in
compare-periodic mode with a period of 10 us. -/
def timeoutUnitWrite (d : Dev) (g v : Nat) : WRes :=
  let mine := 0x400 + g
  let old := d.obj 0x3120 (g + 1)
  need (v == 0xFF || decide (v < 8)) .range <|
  need (v != 0xFF || !d.furrows.any (fun y => y.1 / 512 == g && y.2.enabledSt && y.2.wto != 0)) .busy <|
  need (v == 0xFF || d.unitHolder v == 0 || d.unitHolder v == mine) .conflict <|
  let d := (if old < 8 && old != v then d.releaseUnit old else d).setObj 0x3120 (g + 1) v
  if v = 0xFF then .ok d
  else
    let next := d.alm.time / 2 ^ 32 + 10000
    .ok ((d.setHolder 0xA101 (v + 1) mine).setUnit v { d.ccUnit v with
      cfg := 3, fired := false, period := 10000, time0 := BitVec.ofNat 64 (next % 10 ^ 9 * 2 ^ 32), time1 := BitVec.ofNat 64 (next / 10 ^ 9) })

/-- Writes of the class queues' objects (R431). -/
def queueObjWrite (d : Dev) (i g v : Nat) : WRes :=
  let o (j : Nat) : Nat := if i = j then v else d.obj j (g + 1)
  need (if i = 0x3114 then fld v 15 8 != 0 && fld v 7 0 != 0
        else decide (o 0x3110 + o 0x3111 ≤ 3670016) && decide (o 0x3113 < o 0x3112) && decide (o 0x3112 ≤ o 0x3111)) .range <|
  .ok (d.setObj i (g + 1) v)

/-- The quad domain of group `c` leaves ON: its timeout unit and its CVUs are free (R508). -/
def groupFree (d : Dev) (c : Nat) : Dev :=
  let u := d.obj 0x3120 (c + 1)
  (if u < 8 then d.releaseUnit u else d).freeHeldBy (0x400 + c)

end Dev
end Sys2Proof.Machine
end

