-- ==== Sys2Proof/Machine/Alm.lean ====
section
/-! DEFINITION. The Almanac (R384-R388): its step, sets and steps of the time, the capture/compare
units, and the level at a GPIO ball (R575-R577). -/

namespace Sys2Proof.Machine

namespace CcUnit

def mode (x : CcUnit) : Nat := fld x.cfg.toNat 1 0
def edge (x : CcUnit) : Nat := fld x.cfg.toNat 17 16
def ball (x : CcUnit) : Nat := fld x.cfg.toNat 15 8
def width (x : CcUnit) : Nat := fld x.cfg.toNat 39 24
/-- CC_TIME in ns. -/
def ns (x : CcUnit) : Nat := x.time1.toNat % 2 ^ 48 * 10 ^ 9 + x.time0.toNat / 2 ^ 32
def setNs (x : CcUnit) (n : Nat) : CcUnit :=
  { x with time0 := BitVec.ofNat 64 (n % 10 ^ 9 * 2 ^ 32), time1 := BitVec.ofNat 64 (n / 10 ^ 9 % 2 ^ 48), fired := false }
def stat (x : CcUnit) : Nat := b2n x.skip * 2 + b2n x.hit

end CcUnit

namespace Dev

/-- Units of 2^-32 ns that one fc adds (R384): the nominal step held to 2^-32 ns, trimmed by RATE, and
scaled while the Field clock is throttled (R526). DEDUCED, log entry 77. -/
def almUnits (d : Dev) : Nat :=
  let base : Int := if Config.speed15 then 2863311530 else 3579139413
  let n := base * (1024 * 10 ^ 9 + d.alm.rate.toInt) * 4
  (n / (1024 * 10 ^ 9 * (4 - (d.hl.throttle.toNat : Int)))).toNat

/-- The time as a count of 2^-32 ns, of which SEC keeps 48 bits. -/
def almWrap (x : Int) : Nat := (x % (2 ^ 48 * 10 ^ 9 * 2 ^ 32 : Int)).toNat

/-- One fc of the Almanac (R384). DEDUCED, log entry 77. -/
def almTick (d : Dev) : Dev :=
  let n := d.almUnits
  { d with alm := { d.alm with time := almWrap (d.alm.time + n), mono := (d.alm.mono + n) % 2 ^ 96 } }

/-! GPIO balls (R576, R577). -/

/-- The configuration of ball `b`; the object's cold default is 0x0040. -/
def gpioCfg (d : Dev) (b : Nat) : Nat := (d.hl.gpio.get 0x0040 b).toNat
def gpioFunc (d : Dev) (b : Nat) : Nat := fld (d.gpioCfg b) 11 10

/-- The level that ball `b`'s function sets; `none` where the ball is an input. DEDUCED, log entries 152 and 153. -/
def gpioOut (d : Dev) (b : Nat) : Option Bool :=
  let c := d.gpioCfg b
  match fld c 11 10 with
  | 0 => if bitN c 3 then some (bitN c 4) else none
  | 1 =>
    let us := (List.range 8).filter (fun u => (d.ccUnit u).ball == b)
    if us.any (fun u => decide (2 ≤ (d.ccUnit u).mode) && (d.ccUnit u).width != 0) then
      some (decide (d.mono < d.hl.gpPulse.get 0 b))
    else none
  | _ => if b = 30 then some (d.hl.throttle != 0) else if b = 31 then some d.hl.wdWarned else none

/-- The level the FV96 drives at a ball; `none` where it does not drive. -/
def gpioDrives (d : Dev) (b : Nat) : Option Bool :=
  match d.gpioOut b with
  | some v => if bitN (d.gpioCfg b) 5 && v then none else some v
  | none => none

/-- The level at a ball (0xA001): where the FV96 does not drive it, the board sets it. -/
def gpioLevel (d : Dev) (b : Nat) (board : Nat) : Bool := (d.gpioDrives b).getD (bitN board b)

/-! Capture and compare (R386). -/

/-- The agent that operates a unit is a Piste engine or a furrow group (R387). -/
def unitOperated (d : Dev) (u : Nat) : Bool := let k := d.unitHolder u / 256; k == 4 || k == 5

/-- A unit's pulse of WIDTH µs on its ball, where the ball's FUNC lets the unit reach it (R577).
DEDUCED, log entry 153. -/
def unitPulse (d : Dev) (u : Nat) : Dev :=
  let x := d.ccUnit u
  if x.width ≠ 0 ∧ x.ball < 32 ∧ d.gpioFunc x.ball = 1 ∧ !d.unitOperated u then
    let e := max (d.hl.gpPulse.get 0 x.ball) (d.mono + 1000 * x.width)
    ({ d with hl := { d.hl with gpPulse := d.hl.gpPulse.put x.ball e } }).emit (.gpio x.ball true)
  else d

/-- The first `t + k * per` later than `now`, k at least 1. -/
def nextPeriod (t per now : Nat) : Nat := if per = 0 then t else if now < t + per then t + per else t + ((now - t) / per + 1) * per

/-- A compare unit fires (R386): HIT, source 0x630 + u, the pulse; a periodic unit moves on. DEDUCED, log entry 78. -/
def unitFire (d : Dev) (u : Nat) (skip : Bool) : Dev :=
  let d := (d.occur (0x630 + u)).unitPulse u
  let x := d.ccUnit u
  let y := { x with hit := true, skip := x.skip || skip, fired := true }
  d.setUnit u (if x.mode = 3 then y.setNs (if skip then nextPeriod x.ns x.period.toNat (d.alm.time / 2 ^ 32)
                                           else x.ns + x.period.toNat) else y)

/-- CC_COMPARE: the time has reached CC_TIME. The unit of a Piste engine compares with MONO and counts
the misses (R265). DEDUCED, log entry 78. -/
def ccCompare (d : Dev) (u : Nat) : Dev :=
  let x := d.ccUnit u
  if !d.domOn 70 || x.mode < 2 || x.fired then d
  else
    let h := d.unitHolder u
    if h / 256 = 5 then d.deadlineMiss (h % 256)
    else if x.ns * 2 ^ 32 ≤ d.alm.time then d.unitFire u false else d

/-- CC_CAPTURE (R386): an edge on the ball of a capturing unit records the time less 3 fc. DEDUCED, log entry 78. -/
def ccCapture (d : Dev) (u : Nat) (rising : Bool) : Dev :=
  let x := d.ccUnit u
  let on := x.edge = 2 ∨ (x.edge = 0 ∧ rising) ∨ (x.edge = 1 ∧ !rising)
  if d.domOn 70 ∧ x.mode = 1 ∧ x.ball < 32 ∧ d.gpioFunc x.ball = 1 ∧ on then
    let t := almWrap (d.alm.time - 3 * d.almUnits) / 2 ^ 32
    (d.setUnit u { x.setNs t with hit := true }).occur (0x630 + u)
  else d

/-- A step or set moves the time to `t`: units whose CC_TIME it passes fire with SKIP (R386).
DEDUCED, log entry 78. -/
def almMove (d : Dev) (t : Nat) : Dev :=
  let old := d.alm.time
  let d := { d with alm := { d.alm with time := t } }
  (List.range 8).foldl (fun d u =>
    let x := d.ccUnit u
    let c := x.ns * 2 ^ 32
    if 2 ≤ x.mode ∧ !x.fired ∧ d.unitHolder u / 256 ≠ 5 ∧ old < c ∧ c < t then d.unitFire u true else d) d

/-- ALM_STEP: a signed number of ns (R385). -/
def almStep (d : Dev) (ofs : W64) : Dev := d.almMove (almWrap (d.alm.time + ofs.toInt * 2 ^ 32))
/-- ALM_SET1: SEC, with the NS of ALM_SET0 (R385). -/
def almSet (d : Dev) (sec : Nat) : Dev := d.almMove ((sec % 2 ^ 48 * 10 ^ 9 + d.alm.set0.toNat / 2 ^ 32) * 2 ^ 32)

/-- PTM_DIALOG (R388): the Almanac time and the master's time of the response. -/
def ptmDialog (d : Dev) (master : W64) : Dev :=
  if d.domOn 69 && d.domOn 70 then { d with alm := { d.alm with ptmAlm := d.alm10, ptmMaster := master } } else d

/-! Registers (R385-R387). -/

/-- A register as reader `r` sees it. -/
def almRead (d : Dev) (r o : Nat) : Nat :=
  let x := d.alm
  if 0x100 ≤ o ∧ o < 0x300 then
    let c := d.ccUnit ((o - 0x100) / 0x40)
    match o % 0x40 with
    | 0x00 => c.cfg.toNat | 0x08 => c.time0.toNat | 0x10 => c.time1.toNat | 0x18 => c.period.toNat
    | 0x20 => c.stat | _ => 0
  else match o with
    | 0x00 => x.time / 2 ^ 32 % 10 ^ 9 * 2 ^ 32 + x.time % 2 ^ 32
    | 0x08 => (x.t1.get 0 r).toNat
    | 0x10 => d.mono
    | 0x18 => x.rate.toNat
    | 0x28 => x.set0.toNat
    | _ => 0

/-- ALM_T0_READ: the seconds are latched for the reader (R385). -/
def almLatch (d : Dev) (r : Nat) : Dev :=
  { d with alm := { d.alm with t1 := d.alm.t1.put r (BitVec.ofNat 64 (d.alm.time / 2 ^ 32 / 10 ^ 9)) } }

/-- A write of CC_CFG (R16, R386, R507): a reserved EDGE leaves that field; a MODE other than 0 needs the
ball named to be held by the unit's holder. -/
def ccCfgWrite (d : Dev) (u v : Nat) : Except AccErr Dev :=
  let x := d.ccUnit u
  let v := if fld v 17 16 = 3 then putFld v 17 16 x.edge else v
  let v := fld v 39 24 * 2 ^ 24 + fld v 17 16 * 2 ^ 16 + fld v 15 8 * 2 ^ 8 + fld v 1 0
  let gp := fld v 15 8
  if fld v 1 0 ≠ 0 ∧ !(decide (gp < 32) && d.ballHolder gp == d.unitHolder u) then .error .devAccess
  else .ok (d.setUnit u { x with cfg := BitVec.ofNat 64 v, fired := false })

/-- A write of `size` bytes at offset `o` by an agent whose holder code is `who` (R385, R387).
DEDUCED, log entry 79. -/
def almWrite (d : Dev) (who o size v : Nat) : Except AccErr Dev :=
  let x := d.alm
  let r := o - o % 8
  let lo := o % 8
  if 0x100 ≤ o ∧ o < 0x300 then
    let u := (o - 0x100) / 0x40
    let c := d.ccUnit u
    if who = 0 ∨ d.unitHolder u ≠ who then .error .devAccess
    else match r % 0x40 with
      | 0x00 => d.ccCfgWrite u (Cvu.mergeReg c.cfg.toNat size lo v)
      | 0x08 =>
        let n := Cvu.mergeReg c.time0.toNat size lo v / 2 ^ 32
        .ok (d.setUnit u { c with time0 := BitVec.ofNat 64 (n * 2 ^ 32), fired := false })
      | 0x10 => .ok (d.setUnit u { c with time1 := BitVec.ofNat 64 (Cvu.mergeReg c.time1.toNat size lo v % 2 ^ 48), fired := false })
      | 0x18 => .ok (d.setUnit u { c with period := BitVec.ofNat 64 (Cvu.mergeReg c.period.toNat size lo v) })
      | 0x20 => .ok (if lo = 0 then d.setUnit u { c with skip := c.skip && !bitN v 1, hit := c.hit && !bitN v 0 } else d)
      | _ => .ok d
  else match r with
    | 0x18 => .ok (if lo = 0 then { d with alm := { x with rate := BitVec.ofNat 32 v } } else d)
    | 0x20 => .ok (d.almStep (BitVec.ofNat 64 (Cvu.mergeReg 0 size lo v)))
    | 0x28 =>
      let n := Cvu.mergeReg x.set0.toNat size lo v / 2 ^ 32
      .ok (if n < 10 ^ 9 then { d with alm := { x with set0 := BitVec.ofNat 64 (n * 2 ^ 32) } } else d)
    | 0x30 => .ok (d.almSet (Cvu.mergeReg 0 size lo v))
    | _ => .ok d

end Dev
end Sys2Proof.Machine
end

