-- ==== Sys2Proof/Machine/Drill.lean ====
section
/-! DEFINITION. Drill channels: registers, start checks, the queue, abort requests (R446-R453,
R459, R462-R465). The data a channel moves is in `DrillRun`. -/

namespace Sys2Proof.Machine

namespace Chan

def vaMode (x : Chan) : Bool := x.ctx.getLsbD 63
def sfix (x : Chan) : Bool := x.ctrl.getLsbD 0
def dfix (x : Chan) : Bool := x.ctrl.getLsbD 1
/-- Beat width in bytes. -/
def beat (x : Chan) : Nat := 8 * 2 ^ fld x.ctrl.toNat 5 4
def bar (x : Chan) : Bool := x.ctrl.getLsbD 9
def irq (x : Chan) : Bool := x.ctrl.getLsbD 10
def chain (x : Chan) : Bool := x.ctrl.getLsbD 11
def pfx (x : Chan) : Nat := fld x.ctrl.toNat 17 16
def cven (x : Chan) : Bool := x.ctrl.getLsbD 18
def cvu (x : Chan) : Nat := fld x.ctrl.toNat 23 19
def active (x : Chan) : Bool := x.st == .queued || x.st == .running
/-- Bits of an address in the channel's mode. -/
def abits (x : Chan) : Nat := if x.vaMode then 48 else 46
/-- The translation context of CH_CTX (R449). -/
def xctx (x : Chan) : XCtx :=
  let c := x.ctx.toNat
  let root := fld c 33 0
  ⟨fld c 59 56, BitVec.ofNat 32 root, BitVec.ofNat 32 (fld c 62 62 * 2 ^ 31 + fld c 55 44 * 2 ^ 16 + root / 2 ^ 32),
   bitN c 61, bitN c 60⟩

/-- CH_STATUS. -/
def status (x : Chan) : Nat :=
  x.st.code * 2 ^ 61 + b2n x.abrt * 2 ^ 60 + x.side.toNat * 2 ^ 58 + x.code.toNat * 2 ^ 48 + x.synd.toNat * 2 ^ 32 + x.residue.toNat

/-- The checks of R452 in order, but for CVU_CLAIM; 0 where all pass. `raw`: CH_CTRL as a descriptor
holds it. DEDUCED, log entry 113. -/
def check (x : Chan) (raw : Nat) : Nat :=
  let n := x.count.toNat
  let bad (v : Nat) (fix : Bool) : Bool := decide (2 ^ x.abits ≤ v) || (!fix && decide (2 ^ x.abits < v + n))
  if Nat.land raw 0xFF00F1CC ≠ 0 || x.pfx == 3 || x.next.toNat % 32 != 0 || (!x.cven && (x.cvu != 0 || x.pfx != 0)) then 0x01
  else if n = 0 then 0x03
  else if x.src.toNat % x.beat != 0 || x.dst.toNat % x.beat != 0 || n % x.beat != 0 then 0x02
  else if bad x.src.toNat x.sfix || bad x.dst.toNat x.dfix || decide (2 ^ x.abits ≤ x.next.toNat) then 0x07
  else 0

end Chan

namespace Dev

def drill (d : Dev) (n : Nat) : Drill := d.drills.get {} n
def setDrill (d : Dev) (n : Nat) (x : Drill) : Dev := { d with drills := d.drills.put n x }
def chan (d : Dev) (n c : Nat) : Chan := (d.drill n).chans.get {} c
def setChan (d : Dev) (n c : Nat) (x : Chan) : Dev :=
  d.setDrill n { d.drill n with chans := (d.drill n).chans.put c x }
/-- The event source of a channel (R358). -/
def chanSource (n c : Nat) : Nat := 0x400 + 32 * n + c

/-- The CVU a channel's run holds (R470). -/
def chanCvu (d : Dev) (n c : Nat) : Option Nat := (List.range 32).find? (fun u => d.cvuHas u (.chan n c))
/-- The channel waits for its CVU (R453). -/
def chanWaits (d : Dev) (n c : Nat) : Bool := (d.chan n c).cven && (d.chanCvu n c).isNone

/-- CVU_CLAIM (R452, R459): the CVU's holder is the channel's, and a run names one CVU. -/
def chanCvuBad (d : Dev) (n c : Nat) (x : Chan) : Bool :=
  x.cven && (d.cvuHolder x.cvu != d.chanHolder n c || (match d.chanCvu n c with
    | some u => u != x.cvu
    | none => false))

/-- A run ends in `st`: CH_STATUS is written, the CVU and the Drill are free. DEDUCED, log entry 114. -/
def chanEnd (d : Dev) (n c : Nat) (st : ChSt) (side code synd residue : Nat) : Dev :=
  let g := d.drill n
  let g := { g with busy := g.busy && g.cur.toNat != c, queue := g.queue.filter (· != c),
                    late := g.late.map (fun f => if f.ch = c then { f with old := true } else f) }
  let d := (d.setDrill n g).setChan n c { d.chan n c with
    st := st, abrt := false, side := BitVec.ofNat 2 side, code := BitVec.ofNat 8 code,
    synd := BitVec.ofNat 16 synd, residue := BitVec.ofNat 32 residue, fetch := false, loadNext := false }
  (List.range 32).foldl (fun d u => d.cvuRelease u (.chan n c)) d

/-- The same with the channel's event source. -/
def chanStop (d : Dev) (n c : Nat) (st : ChSt) (side code synd residue : Nat) : Dev :=
  (d.chanEnd n c st side code synd residue).occur (chanSource n c)

/-- Queues a channel (R446). DEDUCED, log entry 114. -/
def chanQueue (d : Dev) (n c : Nat) (fetch : Bool) : Dev :=
  let x := d.chan n c
  let d := d.setDrill n { d.drill n with queue := (d.drill n).queue ++ [c] }
  d.setChan n c { x with st := .queued, abrt := false, fetch := fetch, loadNext := false, residue := x.count }

/-- CH_START (R452). -/
def chStart (d : Dev) (n c : Nat) : Dev :=
  let x := d.chan n c
  if !d.domOn 75 || x.active then d
  else
    let code := if x.check 0 ≠ 0 then x.check 0 else if d.chanCvuBad n c x then 0x0F else 0
    if code ≠ 0 then d.chanStop n c .error 3 code 0 x.count.toNat else d.chanQueue n c false

/-- CH_FETCH (R452). DEDUCED, log entry 113. -/
def chFetch (d : Dev) (n c : Nat) : Dev :=
  let x := d.chan n c
  if !d.domOn 75 || x.active then d
  else if x.next.toNat % 32 ≠ 0 then d.chanStop n c .error 2 0x02 0 x.count.toNat
  else if 2 ^ x.abits ≤ x.next.toNat then d.chanStop n c .error 2 0x07 0 x.count.toNat
  else d.chanQueue n c true

/-- CH_ABORT (R463): a queued channel ends at once, and so does one that waits for its CVU. DEDUCED, log entry 112. -/
def chAbort (d : Dev) (n c : Nat) : Dev :=
  let x := d.chan n c
  match x.st with
  | .queued => d.chanStop n c .aborted 3 0x2A 0 x.count.toNat
  | .running =>
    if 4 ≤ c && d.chanWaits n c && !d.frozen (32 + n) then d.chanStop n c .aborted 3 0x2A 0 x.count.toNat
    else d.setChan n c { x with abrt := true }
  | _ => d

/-- A run's first descriptor with CVEN = 1 asks for its CVU (R453, R470). -/
def chanAsk (d : Dev) (n c : Nat) : Dev :=
  let x := d.chan n c
  if x.cven && (d.chanCvu n c).isNone then d.cvuAsk x.cvu (.chan n c) else d

/-- CHANNEL_RUN (R453). -/
def channelRun (d : Dev) (n : Nat) : Dev :=
  let g := d.drill n
  if g.busy || !d.domOn 75 || d.frozen (32 + n) then d
  else match g.queue with
    | [] => d
    | c :: rest =>
      let d := d.setDrill n { g with queue := rest, busy := true, cur := BitVec.ofNat 5 c }
      let x := d.chan n c
      let d := d.setChan n c { x with st := .running, loadNext := x.fetch }
      if x.fetch then d else d.chanAsk n c

/-! Registers (R448-R451). -/

/-- A register of DRn's block; `clear` clears the RC field. -/
def drillRead (d : Dev) (n o : Nat) (clear : Bool) : Dev × Nat :=
  let g := d.drill n
  if o < 0x2000 then
    let x := d.chan n (o / 0x100)
    (d, match o % 0x100 with
      | 0x00 => x.src.toNat | 0x08 => x.dst.toNat | 0x10 => x.count.toNat | 0x18 => x.ctrl.toNat
      | 0x20 => x.status | 0x28 => x.next.toNat | 0x30 => x.ctx.toNat | 0x38 => x.seq.toNat | _ => 0)
  else match o with
    | 0x8000 => (d, b2n g.busy * 2 ^ 13 + g.cur.toNat * 2 ^ 8 + g.queue.length)
    | 0x8008 => (d, g.werr.toNat)
    | 0x8010 => (if clear then d.setDrill n { g with werrCnt := 0 } else d, g.werrCnt.toNat)
    | _ => (d, 0)

/-- CH_CTRL's fields as written (R16, R449): PFX = 0b11 leaves PFX. DEDUCED, log entry 113. -/
def ctrlFields (old v : Nat) : Nat :=
  Nat.land (if fld v 17 16 = 3 then putFld v 17 16 (fld old 17 16) else v) 0x00FF0E33

/-- A write of `size` bytes to a channel's register by an agent that may write it. `part`: the writer is
an S-level STX of that partition (R450, R451). DEDUCED, log entry 115. -/
def chanWrite (d : Dev) (n o size v : Nat) (part : Option Nat) : Except AccErr Dev :=
  let c := o / 0x100
  let x := d.chan n c
  let r := o % 0x100 - o % 8
  let lo := o % 8
  let m (old : W64) : W64 := BitVec.ofNat 64 (Cvu.mergeReg old.toNat size lo v)
  if 0x40 ≤ r then .ok d
  else if x.active then
    if r = 0x18 && lo = 0 && bitN v 29 then .ok (d.chAbort n c) else .error .devAccess
  else match r with
    | 0x00 => .ok (d.setChan n c { x with src := m x.src })
    | 0x08 => .ok (d.setChan n c { x with dst := m x.dst })
    | 0x10 => .ok (if lo = 0 then d.setChan n c { x with count := BitVec.ofNat 32 v } else d)
    | 0x18 =>
      if lo ≠ 0 || bitN v 29 then .ok d
      else
        let d := d.setChan n c { x with ctrl := BitVec.ofNat 32 (ctrlFields x.ctrl.toNat v) }
        .ok (if bitN v 30 then d.chFetch n c else if bitN v 31 then d.chStart n c else d)
    | 0x28 => .ok (d.setChan n c { x with next := m x.next })
    | 0x30 =>
      let w := Nat.land (m x.ctx).toNat 0xFFFFF003FFFFFFFF
      let w := match part with
        | some p => putFld (putFld w 63 63 1) 59 56 p
        | none => w
      .ok (d.setChan n c { x with ctx := BitVec.ofNat 64 w })
    | 0x38 => .ok (d.setChan n c { x with seq := m x.seq })
    | _ => .ok d

/-- PD75 reaches ON or leaves ON: Drills and CVUs at their cold values (R465, R472). -/
def checksCold (d : Dev) : Dev := { d with drills := [], cvus := [] }

end Dev
end Sys2Proof.Machine
end

