-- ==== Sys2Proof/Machine/DevBus.lean ====
section
/-! DEFINITION. The device region: which register an address names, who may read and write it, and how
the access ends (R24, R30-R33, R145, R151, R162-R167, R242, R280-R285, R326-R329, R359-R362, R385,
R411, R447, R595). -/

namespace Sys2Proof.Machine

def TSt.code : TSt → Nat
  | .stopped => 0 | .ready => 1 | .parked => 2 | .waiting => 3 | .halted => 4 | .stopping => 5

/-- What an originator counts as in the access rules of the register blocks. -/
inductive Who where
  /-- the host, the debug path, or the Headland bridge -/
  | master
  /-- a thread at S, and one at J -/
  | super (t k : Nat)
  | user (t k : Nat)
  | drill
  /-- streams, engines, port engines and walkers: no access (R32) -/
  | other
  deriving DecidableEq, Repr

def Orig.who : Orig → Who
  | .thread t k p => if p then .super t k else .user t k
  | .host | .bridge _ | .debug => .master
  | .drill _ _ => .drill
  | _ => .other

/-- An originator whose writes of reserved offsets of these blocks are ignored, not refused (R447, R448, R468).
DEDUCED, log entry 177. -/
def Who.reaches : Who → Bool
  | .master | .super _ _ => true
  | _ => false

/-- The number of the copy that an originator sees of a register kept per originator. -/
def Orig.copy : Orig → Nat
  | .thread t k _ => 4 * t + k
  | .host => 400
  | .bridge sb => 401 + b2n sb
  | .debug => 403
  | _ => 404

/-- The holder code of an originator in the resource claim table (R387, R504); 0 for none. -/
def Orig.holder : Orig → Nat
  | .host | .bridge false => 0x0100
  | .bridge true => 0x0200
  | _ => 0

/-- A block of the device region, its unit and the offset in it (R30). -/
inductive Block where
  | ls (t o : Nat)
  | pm (t o : Nat)
  | tc (t o : Nat)
  | evc (o : Nat)
  | drill (n o : Nat)
  | cvu (u o : Nat)
  /-- register set 0 context, 1 runtime, 2 counters of furrow f -/
  | furrow (set f o : Nat)
  | alm (o : Nat)
  | fabPri (x o : Nat)
  | atom (o : Nat)
  | xi (q o : Nat)
  | piste (e o : Nat)
  /-- no unit there: reads zero, ignores writes; backed by a domain -/
  | empty (dom : Nat)
  deriving DecidableEq, Repr

/-- DEDUCED, log entry 18. -/
def block (o : Nat) : Block :=
  if o < 0x80_0000 then .ls (o / 0x1_0000) (o % 0x1_0000)
  else if o < 0x100_0000 then .pm ((o - 0x80_0000) / 0x1_0000) (o % 0x1_0000)
  else if o < 0x110_0000 then
    let t := (o - 0x100_0000) / 0x1000
    if t < 96 then .tc t (o % 0x1000) else .empty 0
  else if o < 0x120_0000 then .evc (o - 0x110_0000)
  else if o < 0x130_0000 then
    let n := (o - 0x120_0000) / 0x1_0000
    if n < 8 then .drill n (o % 0x1_0000) else .empty 75
  else if o < 0x140_0000 then
    let u := (o - 0x130_0000) / 0x1000
    if u < 32 then .cvu u (o % 0x1000) else .empty 75
  else if o < 0x144_0000 then .furrow 0 ((o - 0x140_0000) / 0x40) (o % 0x40)
  else if o < 0x148_0000 then .furrow 1 ((o - 0x144_0000) / 0x40) (o % 0x40)
  else if o < 0x150_0000 then .furrow 2 ((o - 0x148_0000) / 0x80) (o % 0x80)
  else if o < 0x160_0000 then .alm (o - 0x150_0000)
  else if o < 0x165_0000 then .fabPri ((o - 0x160_0000) / 0x1_0000) (o % 0x1_0000)
  else if 0x168_0000 ≤ o ∧ o < 0x168_1000 then .atom (o % 0x1000)
  else if o < 0x170_0000 then .empty 70
  else if o < 0x180_0000 then .xi ((o - 0x170_0000) / 0x4_0000) (o % 0x4_0000)
  else if o < 0x190_0000 then .piste ((o - 0x180_0000) / 0x4_0000) (o % 0x4_0000)
  else .empty 70

namespace Dev

/-- The backing domain of a block; the ATOM page lives in the originator's quadrant (R283). -/
def blockDom (o : Orig) : Block → Nat
  | .ls t _ | .pm t _ | .tc t _ => pairDom t
  | .evc _ | .alm _ => 70
  | .drill _ _ | .cvu _ _ => 75
  | .furrow _ f _ => 61 + f / 512
  | .fabPri x _ => if x < 4 then granDom x else 70
  | .atom _ => match o with
    | .thread t _ _ => granDom (t / 24)
    | _ => 0
  | .xi q _ => granDom q
  | .piste e _ => pisteDom e
  | .empty k => k

/-! Tiller control blocks (R162-R167). -/

/-- TC_STATE. -/
def tcState (d : Dev) (t : Nat) : Nat :=
  (List.range 4).foldl (fun a k =>
    let x := d.thread t k
    let st := if x.halted then 4 else x.st.code
    a + (b2n (!(d.slotsBusy t k).isEmpty) * 8 + st) * 16 ^ k) (b2n (d.tillerIdle t) * 2 ^ 16)

def tcErr (x : Tiller) : Nat := x.pmPar.toNat * 2 ^ 24 + x.lsCe.toNat * 2 ^ 16 + x.lsUe.toNat * 2 ^ 8 + x.pmstop.toNat

/-- DEDUCED, log entry 43. -/
def tcRead (d : Dev) (t o : Nat) (clear : Bool) : Dev × Nat :=
  let x := d.tiller t
  if 0x800 ≤ o ∧ o < 0xC00 then (d, ofLE (d.hopBytes t ((o - 0x800) / 64) (o % 64) 8))
  else if 0x100 ≤ o ∧ o < 0x180 then
    let y := d.thread t ((o - 0x100) / 0x20)
    (d, match o % 0x20 with
      | 0x00 => y.entry.toNat | 0x08 => y.arg.toNat | 0x10 => y.tpc.toNat | _ => 0)
  else match o with
    | 0x00 => (d, t / 24 * 2 ^ 8 + t)
    | 0x10 => (d, d.tcState t)
    | 0x18 => (if clear then d.setTiller t { x with pmPar := 0, lsCe := 0, lsUe := 0 } else d, tcErr x)
    | _ => (d, 0)

/-- TC_CMD (R164, R168, R169): a stop wins over a start of the same thread. -/
def tcCmd (d : Dev) (t v : Nat) : Dev :=
  (List.range 4).foldl (fun d k => if bitN v (4 + k) then d.tcStop t k else if bitN v k then d.tcStart t k else d) d

def tcWrite (d : Dev) (t o size v : Nat) : Dev :=
  if 0x800 ≤ o ∧ o < 0xC00 then d.hopPut t ((o - 0x800) / 64) (o % 64) (toLE size v)
  else if o % 8 ≠ 0 then d
  else if 0x100 ≤ o ∧ o < 0x180 then
    d.modThread t ((o - 0x100) / 0x20) (fun y => match o % 0x20 with
      | 0x00 => { y with entry := BitVec.ofNat 32 v &&& 0x13FFF }
      | 0x08 => { y with arg := BitVec.ofNat 32 v }
      | _ => y)
  else match o with
    | 0x08 => d.tcCmd t v
    | 0x18 => d.modTiller t (fun x => { x with pmstop := x.pmstop &&& ~~~ BitVec.ofNat 4 v })
    | _ => d

/-! The Event Controller (R359-R362). -/

/-- A delivery that has been presented to tiller `t` and does not stand there will be presented again (R364). Its claim
stays good (R366). DEDUCED, log entry 47. -/
def reshow (d : Dev) (t : Nat) : Dev :=
  d.sourcesUp.foldl (fun d n =>
    let x := d.src n
    if x.shown.contains t && !(d.standing t x.fast).contains n then d.setSrc n { x with again := t :: x.again.filter (· != t) } else d) d

/-- Takes tiller `t`, which has lost power, off the list of tillers a delivery has been presented to: it will be
presented there again (R364, R369). DEDUCED, log entry 47. -/
def unshow (d : Dev) (t : Nat) : Dev :=
  d.sourcesUp.foldl (fun d n =>
    let x := d.src n
    if x.shown.contains t && !(d.standing t x.fast).contains n then d.setSrc n { x with shown := x.shown.filter (· != t) } else d) d

/-- TE_GATE (R361, R365). DEDUCED, log entry 47. -/
def gateWrite (d : Dev) (t : Nat) (g : Bool) : Dev :=
  let e := { d with evc := { d.evc with gate := d.evc.gate.set false t g } }
  if d.gate t && !g then e.reshow t else e

/-- EV_TRIG (R360, R363): one occurrence of a source by a write of TRIG. -/
def evTrig (d : Dev) (n : Nat) : Dev := d.occur n

/-- HOST_CLAIM (R366). -/
def hostClaim (d : Dev) : Dev × Nat := d.claimBy false

/-- The thread page that an access at offset `o` of the block names, for a thread its own (R359). -/
def pageOf (w : Who) (o : Nat) : Option (Nat × Nat × Nat) :=
  match w with
  | .master => if 0x2_0000 ≤ o ∧ o < 0x5_0000 then
      let i := (o - 0x2_0000) / 0x200
      some (i / 4, i % 4, o % 0x200) else none
  | .super t k => if 0x8_0000 ≤ o ∧ o < 0x8_0200 then some (t, k, o % 0x200) else none
  | _ => none

/-- Offsets that only masters, or only threads, may touch. -/
def evcShut (w : Who) (o : Nat) : Bool :=
  match w with
  | .master => decide (0x8_0000 ≤ o) && decide (o < 0x8_0200)
  | .super _ _ => o == 0x1_1000 || (decide (0x2_0000 ≤ o) && decide (o < 0x5_0000))
  | _ => true

/-- DEDUCED, log entry 17. -/
def evcRead (d : Dev) (w : Who) (o : Nat) (clear : Bool) : Dev × Except AccErr Nat :=
  if evcShut w o then (d, .error .devAccess)
  else match pageOf w o with
    | some (t, k, i) => let (d, v) := d.readPage t k i clear; (d, .ok v)
    | none =>
      if o < 0xFFE0 then
        let x := d.src (o / 0x20)
        (d, .ok (if !validSource (o / 0x20) then 0 else match o % 0x20 with
          | 0x00 => x.cfg.toNat | 0x08 => x.tgt0.toNat | 0x10 => x.tgt1.toNat | _ => x.stat))
      else if 0x1_0000 ≤ o ∧ o < 0x1_0600 then
        let t := (o - 0x1_0000) / 0x10
        (d, .ok (if o % 0x10 = 0 then b2n (d.gate t) else d.thrErr t))
      else if o = 0x1_1000 then
        if clear then let (d, v) := d.hostClaim; (d, .ok v) else (d, .ok d.claimPeek)
      else (d, .ok 0)

/-- DEDUCED, log entry 49. -/
def evcWrite (d : Dev) (w : Who) (o size v : Nat) : Except AccErr Dev :=
  let r := o - o % 8
  let lo := o % 8
  let m (old : W64) : W64 := BitVec.ofNat 64 (Cvu.mergeReg old.toNat size lo v)
  let master := w == .master
  if evcShut w o then .error .devAccess
  else match pageOf w o with
    | some (t, k, i) => if master && pageFixed (i - i % 8) then .error .devAccess
                        else .ok (d.writePage t k (i - i % 8) (Cvu.mergeReg 0 size lo v))
    | none =>
      if o < 0xFFE0 then
        let n := o / 0x20
        let x := d.src n
        let trig := size = 8 && bitN v 63 || lo = 4 && bitN v 31
        if !validSource n then (if master || r % 0x20 = 0x18 && decide (0x7C0 ≤ n) then .ok d else .error .devAccess)
        else match r % 0x20 with
        | 0x00 => if master then .ok (d.writeEvCfg n (m x.cfg).toNat) else .error .devAccess
        | 0x08 => if master then .ok (d.setSrc n { x with tgt0 := m x.tgt0 }) else .error .devAccess
        | 0x10 => if master then .ok (d.setSrc n { x with tgt1 := m x.tgt1 &&& 0x3FFFFFFFF }) else .error .devAccess
        | _ => if master || decide (0x7C0 ≤ n) then .ok (if trig then d.evTrig n else d) else .error .devAccess
      else if 0x1_0000 ≤ o ∧ o < 0x1_0600 then
        let t := (o - 0x1_0000) / 0x10
        let own := match w with
          | .super t' _ => t == t'
          | _ => true
        if r % 0x10 ≠ 0 || !own then .error .devAccess
        else .ok (if lo = 0 then d.gateWrite t (bitN v 0) else d)
      else if o / 8 * 8 = 0x1_1000 then .error .devAccess
      else .ok d

/-! FAB_PRI (R280, R281). -/

/-- A port number exists: initiators and targets of the quadrant crossbars and of the spine (R275).
DEDUCED, log entry 60. -/
def fabInit (x i : Nat) : Bool := if x < 4 then decide (i ≤ 105) else decide (i ≤ 85)
/-- DEDUCED, log entry 60. -/
def fabTarget (x t : Nat) : Bool := if x < 4 then decide (t ≤ 104) else decide (t ≤ 76) || t == 85
/-- Keeps the fields of ports that exist. DEDUCED, log entry 60. -/
def fabMask (x o v : Nat) : Nat :=
  let i := o / 0x80
  (List.range 8).foldl (fun a j =>
    if fabInit x i && fabTarget x (o % 0x80 / 8 * 8 + j) then a + fld v (4 * j + 3) (4 * j) * 16 ^ j else a) 0
def fabKey (x o : Nat) : Nat := x * 0x2000 + o / 8
def fabRead (d : Dev) (x o : Nat) : Nat :=
  if o % 8 = 0 then fabMask x o (d.fabPri.get 0x88888888 (fabKey x o)).toNat else 0

/-! ATOM registers (R283-R285). -/

def atom (d : Dev) (t k : Nat) : AtomRegs := d.atoms.get {} (4 * t + k)
def setAtom (d : Dev) (t k : Nat) (x : AtomRegs) : Dev := { d with atoms := d.atoms.put (4 * t + k) x }

def atomRead (x : AtomRegs) (o : Nat) : Nat :=
  match o with
  | 0x00 => x.req.toNat | 0x08 => x.opnd.toNat | 0x10 => x.cmp.toNat | 0x18 => x.old.toNat | _ => 0

def atomWrite (x : AtomRegs) (o size v : Nat) : AtomRegs :=
  let r := o - o % 8
  let m (old : W64) : Nat := Cvu.mergeReg old.toNat size (o % 8) v
  match r with
  | 0x00 =>
    let w := Nat.land (m x.req) 0xFC00FFFFFFFFFFFF
    { x with req := BitVec.ofNat 64 (if 8 < fld w 63 60 then putFld w 63 60 (fld x.req.toNat 63 60) else w) }
  | 0x08 => { x with opnd := BitVec.ofNat 64 (m x.opnd) }
  | 0x10 => { x with cmp := BitVec.ofNat 64 (m x.cmp) }
  | _ => x

/-! XI_REQ (R326, R327, R595). -/

/-- XI_REQ_LOW_HALF: block `q` holds the low half for the originator. DEDUCED, log entry 53. -/
def xiLowHalf (d : Dev) (q copy v : Nat) : Dev := { d with xiLow := d.xiLow.put (512 * q + copy) (BitVec.ofNat 32 v) }

/-- DEDUCED, log entry 53. -/
def xiWrite (d : Dev) (q : Nat) (orig : Orig) (o size v : Nat) : Dev :=
  let own := match orig with
    | .thread t _ _ => some (d.obj 0x6100 (t + 1) % 16)
    | _ => none
  if o = 0 && size = 8 then d.xiReq orig.copy v own
  else if o = 0 then d.xiLowHalf q orig.copy v
  else if o = 4 then d.xiReq orig.copy (v % 2 ^ 32 * 2 ^ 32 + (d.xiLow.get 0 (512 * q + orig.copy)).toNat) own
  else d

/-! The whole region. -/

/-- The half of a 64-bit register that an access of `n` bytes reads. -/
def halfOf (o n v : Nat) : Nat := if n = 8 then v % 2 ^ 64 else v / 2 ^ (8 * (o % 8)) % 2 ^ 32

/-- Bytes of a program memory slot, as containers (R31). -/
def pmBytes (d : Dev) (t o n : Nat) : List W8 := (List.range n).map (fun i => d.mem.raw (pmCell t (o + i)))
def pmPut (d : Dev) (t o : Nat) (n v : Nat) : Dev :=
  (List.range (n / 2)).foldl (fun d i => d.pmWrite t ((o + 2 * i) / 2) (BitVec.ofNat 14 (v / 2 ^ (16 * i)))) d

/-- Why an access of `n` bytes at offset `o` is turned away before its block sees it (R30-R33).
DEDUCED, log entry 17. -/
def devGate (d : Dev) (orig : Orig) (o n : Nat) : Option AccErr :=
  if devHole o then some .paHole
  else if orig.who == .other || !(n == 4 || n == 8) || o % n != 0 then some .devAccess
  else if !d.domOn (blockDom orig (block o)) then some .domainOff
  else none

/-- A read of the device region. A peek is the same read with its effects dropped (R551).
DEDUCED, log entries 17, 18 and 43. -/
def devRead (d : Dev) (orig : Orig) (o n : Nat) : Dev × Except AccErr Nat :=
  let w := orig.who
  let low := o % 8 = 0
  let r := o - o % 8
  let all (v : Nat) : Except AccErr Nat := .ok (halfOf o n v)
  match d.devGate orig o n with
  | some e => (d, .error e)
  | none => match block o with
    | .ls t i => match d.lsRead t i n with
      | (d, some bs) => (d, .ok (ofLE bs))
      | (d, none) => (d, .error (.uncorr 1 true))
    | .pm t i => (d, .ok (ofLE (d.pmBytes t i n)))
    | .tc t i => let (d, v) := d.tcRead t (i - i % 8) low; (d, all v)
    | .evc i => match d.evcRead w (i - i % 8) low with
      | (d, .ok v) => (d, all v)
      | (d, .error e) => (d, .error e)
    | .drill m i => match w with
      | .master | .super _ _ => let (d, v) := d.drillRead m (i - i % 8) low; (d, all v)
      | _ => (d, .error .devAccess)
    | .cvu u i => match w with
      | .master | .super _ _ => (d, all ((d.cvu u).read (i - i % 8)))
      | _ => (d, .error .devAccess)
    | .furrow s f i => match w with
      | .user _ _ => (d, .error .devAccess)
      | _ =>
        let x := d.furrow f
        let j := i - i % 8
        (d, all (match s with | 0 => x.w (j / 8) | 1 => furRead x j | _ => x.counter (j / 8)))
    | .alm i => match w with
      | .master | .super _ _ =>
        let v := d.almRead orig.copy (i - i % 8)
        (if r % 0x10_0000 = 0 then d.almLatch orig.copy else d, all v)
      | _ => (d, .error .devAccess)
    | .fabPri x i => (d, all (d.fabRead x (i - i % 8)))
    | .atom i => match orig with
      | .thread t k _ => (d, all (atomRead (d.atom t k) (i - i % 8)))
      | _ => (d, .error .devAccess)
    | .xi _ _ => match w with
      | .master | .super _ _ => (d, .ok 0)
      | _ => (d, .error .devAccess)
    | .piste e i => let (d, v) := d.peRead e (i - i % 8) low; (d, all v)
    | .empty _ => (d, .ok 0)

/-- A Drill or CVU register may be written by the originator (R447): `k` is the resource's holder. -/
def mayWriteHeld (d : Dev) (orig : Orig) (k : Nat) : Bool :=
  match orig.who with
  | .master => k != 0
  | .super t _ => k == 0x0300 + d.obj 0x6100 (t + 1) % 16
  | _ => false

/-- A write of the device region. DEDUCED, log entries 17 and 18. -/
def devWrite (d : Dev) (orig : Orig) (o n v : Nat) : Dev × Except AccErr Unit :=
  let w := orig.who
  let v := v % 2 ^ (8 * n)
  let lift (r : Except AccErr Dev) : Dev × Except AccErr Unit :=
    match r with
    | .ok e => (e, .ok ())
    | .error x => (d, .error x)
  match d.devGate orig o n with
  | some e => (d, .error e)
  | none => match block o with
    | .ls t i => match d.lsWrite t i (toLE n v) with
      | (d, true) => (d, .ok ())
      | (d, false) => (d, .error (.uncorr 1 true))
    | .pm t i => (d.pmPut t i n v, .ok ())
    | .tc t i => match w with
      | .user _ _ => (d, .error .devAccess)
      | _ => (d.tcWrite t i n v, .ok ())
    | .evc i => lift (d.evcWrite w i n v)
    | .drill m i =>
      if i < 0x2000 then
        if !d.mayWriteHeld orig (d.chanHolder m (i / 0x100)) && !(i % 0x100 ≥ 0x40 && w.reaches) then (d, .error .devAccess)
        else lift (d.chanWrite m i n v (match w with
          | .super t _ => some (d.obj 0x6100 (t + 1) % 16)
          | _ => none))
      else (d, if w.reaches && !(decide (0x8000 ≤ i) && decide (i < 0x8018)) then .ok () else .error .devAccess)
    | .cvu u i =>
      if !d.mayWriteHeld orig (d.cvuHolder u) && !(0x60 ≤ i && w.reaches) then (d, .error .devAccess)
      else match (d.cvu u).write i n v with
        | .error e => (d, .error e)
        | .ok x =>
          (if 0x40 ≤ i && decide (i < 0x60) && d.feedHeld u then
             d.setCvu u { d.cvu u with held := (d.cvu u).held ++ [Cvu.feedBytes i v] }
           else d.setCvu u x, .ok ())
    | .furrow s f i => match w with
      | .user _ _ => (d, .error .devAccess)
      | .super _ _ => if s = 1 ∧ i / 8 * 8 = 0x10 then lift (d.furWrite s f i n v) else (d, .error .devAccess)
      | _ => lift (d.furWrite s f i n v)
    | .alm i => match w with
      | .master => lift (d.almWrite orig.holder i n v)
      | _ => (d, .error .devAccess)
    | .fabPri x i => match orig with
      | .host | .bridge _ | .debug =>
        (if i % 8 = 0 then { d with fabPri := d.fabPri.put (fabKey x i) (BitVec.ofNat 32 (fabMask x i v)) } else d, .ok ())
      | _ => (d, .error .devAccess)
    | .atom i => match orig with
      | .thread t k _ => (d.setAtom t k (atomWrite (d.atom t k) i n v), .ok ())
      | _ => (d, .error .devAccess)
    | .xi q i => match w with
      | .master | .super _ _ => (d.xiWrite q orig i n v, .ok ())
      | _ => (d, .error .devAccess)
    | .piste e i => match w with
      | .master | .super _ _ => lift (d.peWrite e i n v)
      | _ => (d, .error .devAccess)
    | .empty _ => (d, .ok ())

/-! Any address, for LDX, STX, the host, the debug path and Drills. -/

/-- Eight bytes at a time, as a wide Drill beat reaches a local store or a program memory (R32). -/
def wideOk (orig : Orig) (o : Nat) : Bool :=
  match orig, block o with
  | .drill _ _, .ls _ _ | .drill _ _, .pm _ _ => true
  | _, _ => false

def devReadWide (d : Dev) (orig : Orig) : Nat → Nat → Dev × Except AccErr (List W8)
  | 0, _ => (d, .ok [])
  | n + 1, o => match d.devRead orig o 8 with
    | (d, .error e) => (d, .error e)
    | (d, .ok v) => match devReadWide d orig n (o + 8) with
      | (d, .ok r) => (d, .ok (toLE 8 v ++ r))
      | (d, .error e) => (d, .error e)

def devWriteWide (d : Dev) (orig : Orig) (o : Nat) : Nat → List W8 → Dev × Except AccErr Unit
  | 0, _ => (d, .ok ())
  | n + 1, bs => match d.devWrite orig o 8 (ofLE (bs.take 8)) with
    | (d, .error e) => (d, .error e)
    | (d, .ok _) => devWriteWide d orig (o + 8) n (bs.drop 8)

/-- A read by physical address. -/
def busRead (d : Dev) (orig : Orig) (tport pa n : Nat) : Dev × Except AccErr (List W8) :=
  match region pa with
  | .device o =>
    if 8 < n && n % 8 = 0 && !devHole o && wideOk orig o then d.devReadWide orig (n / 8) o
    else match d.devRead orig o n with
      | (d, .ok v) => (d, .ok (toLE n v))
      | (d, .error e) => (d, .error e)
  | _ => d.streamRead orig tport pa n

/-- A write by physical address. -/
def busWrite (d : Dev) (orig : Orig) (pa : Nat) (bs : List W8) : Dev × Except AccErr Unit :=
  let n := bs.length
  match region pa with
  | .device o =>
    if 8 < n && n % 8 = 0 && !devHole o && wideOk orig o then d.devWriteWide orig o (n / 8) bs
    else d.devWrite orig o n (ofLE bs)
  | _ => d.streamWrite orig pa bs

end Dev
end Sys2Proof.Machine
end

