-- ==== Sys2Proof/Machine/SeqMem.lean ====
section
/-! DEFINITION. How parked instructions of a thread go on: LDX, STX and the store buffer, walks, ATOM
operations, XI_SYNC, CLAIM (R138, R153-R155, R283-R286, R293, R324, R329, R366, R561). -/

namespace Sys2Proof.Machine
namespace Dev

/-- An entry of the store buffer shares a byte with a read within one window (R155). -/
def sbMeets (x : Thread) (pa n : Nat) : Bool :=
  x.sb.any (fun e => window e.pa == window pa && overlaps e.pa e.size pa n)

/-- A read of the thread has left the device and not returned. -/
def ldxSent (d : Dev) (t k : Nat) : Bool :=
  d.pcie.reads.any (fun r => r.who == .thread t k) || d.bonds.any (fun b => b.2.reads.any (fun r => r.who == .thread t k))

/-- Issues an LDX whose target lies outside the device, once no buffered STX shares a byte (R155, R405).
DEDUCED, log entries 83 and 84. -/
def ldxIssue (d : Dev) (t k : Nat) : Dev :=
  let x := d.thread t k
  match x.park with
  | .ldx op =>
    if !outside op.pa || d.ldxSent t k || sbMeets x op.pa op.size ||
      (d.refusesRange (.thread t k x.priv) op.pa op.size).isSome then d
    else match region op.pa with
      | .host o => d.hostReadReq (d.obj 0x3300 1 + o) op.size (.thread t k)
      | .peer p o => d.peerRead p o op.size (.thread t k)
      | _ => d
  | _ => d

/-- An instruction command of a thread; an LDX may issue its read at once. DESIGN CHOICE, log entry 6. -/
def seqStep (d : Dev) (t k : Nat) (op : SeqOp) : Dev :=
  match op with
  | .ldx size a b =>
    let e := d.issueOp t k (.ldx size a b)
    if (d.thread t k).st == .ready && d.tillerOn t then e.ldxIssue t k else e
  | op => d.issueOp t k op

/-- The data of an LDX arrives, or its error (R33, R153, R340). -/
def ldxDone (d : Dev) (t k : Nat) (op : MemOp) (r : Except AccErr (List W8)) : Dev :=
  match r with
  | .ok bs =>
    (d.modThread t k (fun x =>
      if op.size = 8 then x.wrPair op.reg (BitVec.ofNat 64 (ofLE bs)) else x.wr op.reg (BitVec.ofNat 32 (ofLE bs)))).resume t k
  | .error e =>
    let (vec, info) := accExc e
    d.seqExc t k vec info (if vec = 0x07 then none else some op.va)

/-- The LDX that reads ATOM_EXEC, and one that reads XI_SYNC. -/
def isAtomExec (op : MemOp) : Bool := op.pa == 0x000B_0168_0018 && (op.size == 4 || op.size == 8)
def isXiSync (op : MemOp) : Bool := isXiSyncPa op.pa && (op.size == 4 || op.size == 8)

/-- LDX_DATA_RETURN (R153, R155). DESIGN CHOICE, log entry 9. -/
def ldxReturn (d : Dev) (t k : Nat) : Dev :=
  let x := d.thread t k
  match x.park with
  | .ldx op =>
    if !d.tillerOn t || sbMeets x op.pa op.size || isAtomExec op || isXiSync op then d
    else
      let o : Orig := .thread t k x.priv
      if outside op.pa then
        match d.refusesRange o op.pa op.size with
        | some e => if d.ldxSent t k then d else d.ldxDone t k op (.error e)
        | none => d.ldxIssue t k
      else
        let (d, r) := d.busRead o 3 op.pa op.size
        d.ldxDone t k op r
  | _ => d

/-- ATOM_EXEC (R282, R285, R286, R561). -/
def atomExec (d : Dev) (t k : Nat) : Dev :=
  let x := d.thread t k
  match x.park with
  | .ldx op =>
    let a := d.atom t k
    let n := 2 ^ fld a.req.toNat 59 58
    let code := fld a.req.toNat 63 60
    let va := fld a.req.toNat 47 0
    let give (d : Dev) (v : Nat) : Dev := d.ldxDone t k op (.ok (toLE op.size v))
    let fails (vec info : Nat) (d : Dev) : Dev := d.seqExc t k vec info (some va)
    if !isAtomExec op || !d.tillerOn t || x.sb.any (fun e => decide (e.pa / 0x1000 = 0x000B_0168_0000 / 0x1000)) then d
    else if !d.domOn (granDom (t / 24)) then d.ldxDone t k op (.error .domainOff)
    else if x.dbg.brk && code == 2 then
      let d := d.setThread t k { x with dbg := { x.dbg with brk := false } }
      give d (2 ^ (8 * n) - 1 - a.cmp.toNat % 2 ^ (8 * n))
    else if va % n ≠ 0 then fails 0x02 0 d
    else match d.xlate ⟨none, t / 24⟩ ⟨.atom, d.ctxOf t k, va⟩ with
      | (d, .error (.fault s)) => fails 0x04 s d
      | (d, .error .off) => fails 0x05 0x22 d
      | (d, .ok pa) => match d.bankDo (.thread t k x.priv) 3 code n pa a.opnd.toNat a.cmp.toNat with
        | (d, .error e) => fails (accExc e).1 (accExc e).2 d
        | (d, .ok old) => give (d.setAtom t k { a with old := BitVec.ofNat 64 old }) old
  | _ => d

/-- XI_SYNC of a thread (R329): its writes to translation blocks are acknowledged, and every access translated through an
entry that it removed has been performed. DEDUCED, log entry 54. -/
def xiSync (d : Dev) (t k : Nat) : Dev :=
  let x := d.thread t k
  let xi (e : SbEntry) : Bool := decide (e.pa / 0x10_0000 = 0x000B_0170_0000 / 0x10_0000)
  match x.park with
  | .ldx op =>
    if !isXiSync op || !d.tillerOn t || x.sb.any xi || d.syncing (4 * t + k) then d
    else
      let (d, r) := d.busRead (.thread t k x.priv) 3 op.pa op.size
      d.ldxDone t k op r
  | _ => d

/-- A parked STX takes a free entry and ends, or parks for one (R154). DEDUCED, log entry 41. -/
def stxWake (d : Dev) (t k : Nat) (op : MemOp) : Dev :=
  if 16 ≤ (d.thread t k).sb.length then d.parkAs t k (.stxFull op) else (d.stxEnter t k op).resume t k

/-- STX_ENTRY_SEND (R154): the oldest entry not yet sent goes onto the scalar port. DESIGN CHOICE, log entry 9. -/
def stxSend (d : Dev) (t k : Nat) : Dev :=
  d.modThread t k (fun x => match x.sb.findIdx? (fun e => !e.sent) with
    | some i => { x with sb := x.sb.modify i (fun e => { e with sent := true }) }
    | none => x)

/-- What waits for the store buffer looks again: FENCE, an STX without an entry, SOW and TOW, an LDX that
shared a byte. `oldest`: the oldest entry was freed. DEDUCED, log entry 41. -/
def sbFreed (d : Dev) (t k : Nat) (oldest : Bool) : Dev :=
  let x := d.thread t k
  match x.park with
  | .fence => if x.sb.isEmpty then d.resume t k else d
  | .stxFull op => if oldest then d.stxWake t k op else d
  | .sowDrain towed reg va => d.sowTry t k towed reg va
  | .ldx _ => d.ldxIssue t k
  | _ => d

/-- An STX to a feed register that has to wait: it is acknowledged once it has been fed (R468). -/
def stxFeeds (d : Dev) (pa : Nat) : Bool :=
  match region pa with
  | .device o => (match block o with
    | .cvu u i => 0x40 ≤ i && decide (i < 0x60) && d.domOn 75 && (d.cvu u).att.isNone && d.feedHeld u
    | _ => false)
  | _ => false

/-- An STX to the host window, and one that may cause an event (R294, R295). -/
def toHost (pa : Nat) : Bool := match region pa with | .host _ => true | _ => false
def toEvc (pa : Nat) : Bool := match region pa with | .device o => (match block o with | .evc _ => true | _ => false) | _ => false

/-- Entry `f` must leave the store buffer before the later entry `e`: they share a byte (R292), or `f` goes to the
host window and `e` goes there too or may cause an event whose MSI-X message follows it (R294, R295). DEDUCED, log
entry 41. -/
def sbBefore (f e : SbEntry) : Bool :=
  (window f.pa == window e.pa && overlaps f.pa f.size e.pa e.size) || (toHost f.pa && (toHost e.pa || toEvc e.pa))

/-- STX_ACK (R33, R154): the target of entry `i` acknowledges its write, or the write fails with an
ASYNC_STORE record. Writes to shared bytes reach memory in issue order, and so do those to the host window.
DESIGN CHOICE, log entry 9; DEDUCED, log entry 41. -/
def stxAck (d : Dev) (t k i : Nat) : Dev :=
  let x := d.thread t k
  match x.sb[i]? with
  | none => d
  | some e =>
    if !d.tillerOn t || !e.sent || (x.sb.take i).any (fun f => sbBefore f e) || d.stxFeeds e.pa then d
    else
      let d := match d.busWrite (.thread t k e.priv) e.pa (toLE e.size e.data) with
        | (d, .ok _) => d
        | (d, .error a) => d.asyncStore t k a.code e.pa t none
      (d.modThread t k (fun x => { x with sb := x.sb.eraseIdx i })).sbFreed t k (i == 0)

/-- WALK_COMPLETE (R324) of the walk a parked instruction waits for: one that another walk of its page has served finds
the page in the TLBs. DEDUCED, log entry 51. -/
def walkComplete (d : Dev) (t k : Nat) : Dev :=
  let x := d.thread t k
  let ctx := d.ctxOf t k
  let go (kind : AccKind) (va : Nat) (done : Dev → Nat → Dev) : Dev :=
    match d.xlate (tillerPath t) ⟨kind, ctx, va⟩ with
    | (d, .ok pa) => done d pa
    | (d, .error (.fault s)) => d.seqExc t k 0x04 s (some va)
    | (d, .error .off) => d.seqExc t k 0x05 0x22 (some va)
  if !d.tillerOn t || !d.walkRuns t k then d
  else match x.park with
    | .walk op =>
      go (if op.load then .read else .write) op.va (fun d pa =>
        if op.load then (d.parkAs t k (.ldx { op with pa := pa })).ldxIssue t k
        else d.stxWake t k { op with pa := pa })
    | .sowWalk towed reg va => go .fetch va (fun d pa => d.parkAs t k (.sowFetch towed reg va pa))
    | _ => d

/-- CLAIM_DECIDE (R366, R367): the thread's claim is granted a source or the spurious number. DEDUCED, log entry 46. -/
def claimDecide (d : Dev) (t k : Nat) : Dev :=
  match (d.thread t k).park with
  | .claim reg =>
    if !d.tillerOn t then d
    else if !d.domOn 70 || !d.claimTurn (4 * t + k) then d
    else
      let (d, n) := d.claimThread t k
      (d.modThread t k (fun x => x.wr reg (BitVec.ofNat 32 n))).resume t k
  | _ => d

end Dev
end Sys2Proof.Machine
end

