-- ==== Sys2Proof/Machine/DrillRun.lean ====
section
/-! DEFINITION. The data a Drill channel moves, and how a descriptor or a run ends (R453-R461,
R463-R465, R469). The bytes of a descriptor are moved when the command that ends it comes. -/

namespace Sys2Proof.Machine

/-- Where a move stopped: side, code, syndrome. -/
structure MoveErr where
  side : Nat
  code : Nat
  synd : Nat
  deriving DecidableEq, Repr

namespace Dev

/-- The physical address of an access of a channel, through CH_CTX (R449, R450). -/
def chanXlate (d : Dev) (n : Nat) (x : Chan) (kind : AccKind) (a : Nat) : Dev × Except (Nat × Nat) Nat :=
  if !x.vaMode then (d, .ok a)
  else match d.xlate ⟨none, n % 4⟩ ⟨kind, x.xctx, a⟩ with
    | (d, .ok pa) => (d, .ok pa)
    | (d, .error (.fault s)) => (d, .error (0x20, s))
    | (d, .error .off) => (d, .error (0x22, 0))

/-- A move in progress: the device, the first offset not moved, how it stopped, whether an error stopped
it, and failed writes that arrive after the end. -/
structure Move where
  dev  : Dev
  off  : Nat
  err  : Option MoveErr := none
  late : List LateFail := []
  deriving DecidableEq, Repr

/-- Writes of a few later beats that were in flight when a write failed (R461): a free number of them,
whose own outcome is not reported. DESIGN CHOICE, log entry 111. -/
def straggle (d : Dev) (n c : Nat) (x : Chan) : Nat → Nat → Dev
  | 0, _ => d
  | k + 1, off =>
    let sa := x.src.toNat + (if x.sfix then 0 else off)
    let da := x.dst.toNat + (if x.dfix then 0 else off)
    match d.chanXlate n x .read sa, d.chanXlate n x .write da with
    | (_, .ok ps), (_, .ok pd) =>
      let (d, r) := d.busRead (.drill n c) 0 ps x.beat
      match r with
      | .error _ => d
      | .ok bs => straggle (d.busWrite (.drill n c) pd bs).1 n c x k (off + x.beat)
    | _, _ => d

/-- Moves `k` beats from offset `off` (R454, R460, R461): the CVU is fed the bytes below the first
failure. Where BAR = 0, a write failure may arrive after the descriptor's end: a free value says so.
DEDUCED, log entry 110; DESIGN CHOICE, log entry 111. -/
def moveBeats (d : Dev) (n c : Nat) (x : Chan) (cvu : Option Nat) : Nat → Nat → List LateFail → Move
  | 0, off, late => { dev := d, off := off, late := late }
  | k + 1, off, late =>
    let sa := x.src.toNat + (if x.sfix then 0 else off)
    let da := x.dst.toNat + (if x.dfix then 0 else off)
    let stop (d : Dev) (side code synd : Nat) : Move := { dev := d, off := off, err := some ⟨side, code, synd⟩, late := late }
    match d.chanXlate n x .read sa with
    | (d, .error (code, s)) => stop d 0 code s
    | (d, .ok ps) => match d.busRead (.drill n c) 0 ps x.beat with
      | (d, .error e) => stop d 0 e.code 0
      | (d, .ok bs) => match d.chanXlate n x .write da with
        | (d, .error (code, s)) => stop d 1 code s
        | (d, .ok pd) =>
          let feed (d : Dev) : Dev := match cvu with
            | some u => d.cvuFeed u bs
            | none => d
          match d.busWrite (.drill n c) pd bs with
          | (d, .ok _) => moveBeats (feed d) n c x cvu k (off + x.beat) late
          | (d, .error e) =>
            let (d, v) := d.free
            if !x.bar && v % 2 = 1 then
              moveBeats (feed d) n c x cvu k (off + x.beat) (late ++ [{ ch := c, code := e.code, pa := pd, off := off }])
            else stop (d.straggle n c x (v / 2 % (k + 1)) (off + x.beat)) 1 e.code 0

/-- The prefix of R469, fed before the first data byte. -/
def chanPrefix (d : Dev) (n c : Nat) (cvu : Option Nat) : Dev :=
  let x := d.chan n c
  match cvu with
  | none => d
  | some u =>
    if x.pfx = 1 then d.cvuFeed u (toLE 8 x.src.toNat)
    else if x.pfx = 2 then (d.cvuFeed u (toLE 8 x.seq.toNat)).setChan n c { x with seq := x.seq + 1 }
    else d

/-- Moves the first `len` bytes of the current descriptor. -/
def chanMove (d : Dev) (n c len : Nat) : Move :=
  let x := d.chan n c
  let cvu := if x.cven then d.chanCvu n c else none
  let m := (d.chanPrefix n c cvu).moveBeats n c x cvu (len / x.beat) 0 []
  { m with dev := m.dev.setDrill n { m.dev.drill n with late := (m.dev.drill n).late ++ m.late } }

/-- The running channel of a Drill, if it can move: PD75 ON, neither frozen nor waiting for a CVU or a
descriptor. DEDUCED, log entry 116. -/
def running (d : Dev) (n : Nat) : Option Nat :=
  let g := d.drill n
  let c := g.cur.toNat
  let x := d.chan n c
  if !g.busy || !d.domOn 75 || d.frozen (32 + n) || x.loadNext || d.chanWaits n c || (x.cven && d.frozen x.cvu) then none
  else some c

/-- Failed writes of channel `c`'s run whose failures have not arrived. -/
def pending (d : Dev) (n c : Nat) : List LateFail := (d.drill n).late.filter (fun f => f.ch == c && !f.old)

/-- The lowest failed offset among a failure at `off` and the failures that arrive while the channel waits for its
acknowledgements (R460, R461). DESIGN CHOICE, log entry 176. -/
def lowestFail (fs : List LateFail) (e : Option (Nat × MoveErr)) : Option (Nat × MoveErr) :=
  fs.foldl (fun b f => match b with
    | some (o, x) => if f.off < o then some (f.off, ⟨1, f.code, 0⟩) else some (o, x)
    | none => some (f.off, ⟨1, f.code, 0⟩)) e

/-- The channel waits until every write it has issued is acknowledged, and stops with the lowest failure, if there is
one (R460, R461, R463); `e` the failure met on the way. -/
def afterAcks (d : Dev) (n c : Nat) (e : Option (Nat × MoveErr)) : Option Dev :=
  match lowestFail (d.pending n c) e with
  | none => none
  | some (off, x) =>
    let d := d.setDrill n { d.drill n with late := (d.drill n).late.filter (fun f => !(f.ch == c && !f.old)) }
    some (d.chanStop n c .error x.side x.code x.synd ((d.chan n c).count.toNat - off))

/-- A move that an error has stopped ends the run (R460, R461). -/
def chanFail (d : Dev) (n c : Nat) (m : Move) (e : MoveErr) : Dev := (m.dev.afterAcks n c (some (m.off, e))).getD d

/-- Records a write failure that arrives after its channel has ended (R461). -/
def noteLate (d : Dev) (n : Nat) (f : LateFail) : Dev :=
  let g := d.drill n
  (d.setDrill n { g with
    werr := BitVec.ofNat 64 (f.code * 2 ^ 56 + f.ch * 2 ^ 51 + f.pa % 2 ^ 46),
    werrCnt := if g.werrCnt = 0xFFFFFFFF then g.werrCnt else g.werrCnt + 1 }).occur (chanSource n f.ch)

/-- The failures of a channel's earlier runs arrive before a descriptor with BAR = 1 ends (R456). -/
def oldArrive (d : Dev) (n c : Nat) : Dev :=
  let fs := (d.drill n).late.filter (fun f => f.ch == c && f.old)
  fs.foldl (fun d f => d.noteLate n f) (d.setDrill n { d.drill n with late := (d.drill n).late.filter (fun f => !(f.ch == c && f.old)) })

/-- DESCRIPTOR_END (R456-R458): the current descriptor moves its bytes and ends; the run ends DONE, or
the next descriptor is to be loaded. A failure on the way ends the run in ERROR, and with BAR = 1 so does one of an
earlier descriptor of the run, which arrives before the end. DEDUCED, log entry 110; DESIGN CHOICE, log entry 176. -/
def descriptorEnd (d : Dev) (n : Nat) : Dev :=
  match d.running n with
  | none => d
  | some c =>
    let x := d.chan n c
    if x.bar && !(d.pending n c).isEmpty then
      let (d, v) := d.free
      let d := d.straggle n c x (v % (x.count.toNat / x.beat + 1)) 0
      (d.afterAcks n c none).getD d
    else
      let m := d.chanMove n c x.count.toNat
      match m.err with
      | some e => d.chanFail n c m e
      | none =>
        let d := if x.bar then m.dev.oldArrive n c else m.dev
        let d := if x.chain then d.setChan n c { d.chan n c with loadNext := true, residue := 0 }
                 else d.chanEnd n c .done 3 0 0 0
        if x.irq then d.occur (chanSource n c) else d

/-- TRANSFER_ERROR (R460, R461): a failure of the current descriptor stops the channel; no effect where
none of its accesses fails. DEDUCED, log entry 110. -/
def transferError (d : Dev) (n : Nat) : Dev :=
  match d.running n with
  | none => d
  | some c =>
    let m := d.chanMove n c (d.chan n c).count.toNat
    match m.err with
    | some e => d.chanFail n c m e
    | none => d

/-- The descriptor at CH_NEXT as it would stand in the registers, with the raw word of CH_CTRL (R458). -/
def descOf (x : Chan) (bs : List W8) : Chan × Nat :=
  let w (i : Nat) : Nat := ofLE (slice bs (8 * i) 8)
  let raw := w 2 / 2 ^ 32
  ({ x with src := BitVec.ofNat 64 (w 0), dst := BitVec.ofNat 64 (w 1), count := BitVec.ofNat 32 (w 2),
            ctrl := BitVec.ofNat 32 (Nat.land raw 0x00FF0E33), next := BitVec.ofNat 64 (w 3) }, raw)

/-- DESCRIPTOR_LOAD (R458, R459); a channel that is to be aborted loads none (R463, R464). -/
def descriptorLoad (d : Dev) (n : Nat) : Dev :=
  let g := d.drill n
  let c := g.cur.toNat
  let x := d.chan n c
  if !g.busy || !d.domOn 75 || d.frozen (32 + n) || !x.loadNext || x.abrt then d
  else
    let bad (d : Dev) (code synd : Nat) : Dev := (d.afterAcks n c none).getD (d.chanStop n c .error 2 code synd 0)
    match d.chanXlate n x .read x.next.toNat with
    | (d, .error (code, s)) => bad d code s
    | (d, .ok pa) =>
      let r : Dev × Except AccErr (List W8) := match region pa with
        | .device o => (d, .error (if devHole o then AccErr.paHole else AccErr.devAccess))
        | _ => d.streamRead (.drill n c) 0 pa 32
      match r with
      | (d, .error e) => bad d e.code 0
      | (d, .ok bs) =>
        let (y, raw) := descOf x bs
        let code := if y.check raw ≠ 0 then y.check raw else if d.chanCvuBad n c y then 0x0F else 0
        if code ≠ 0 then bad d code 0
        else
          let d := d.setDrill n { d.drill n with late := (d.drill n).late.map (fun f => if f.ch = c then { f with off := 0 } else f) }
          (d.setChan n c { y with fetch := false, loadNext := false, residue := y.count }).chanAsk n c

/-- The run is aborted once its writes are acknowledged: a failure among them is reported instead (R463-R465). -/
def abortEnds (d : Dev) (n c residue : Nat) : Dev :=
  (d.afterAcks n c none).getD (d.chanStop n c .aborted 3 0x2A 0 residue)

/-- ABORT_COMPLETE (R463-R465): the block in progress is finished, or for a Piste-reserved channel the
descriptor. How far the channel has come is a free value; a run that has issued its last read ignores
the abort. DESIGN CHOICE, log entry 111; DEDUCED, log entry 112. -/
def abortComplete (d : Dev) (n : Nat) : Dev :=
  let c := (d.drill n).cur.toNat
  let x := d.chan n c
  if !x.abrt || !(d.drill n).busy || !d.domOn 75 || d.frozen (32 + n) then d
  else if x.loadNext then d.abortEnds n c 0
  else if c < 4 then
    if !x.chain then d.setChan n c { x with abrt := false }
    else match d.running n with
      | none => d
      | some _ =>
        let m := d.chanMove n c x.count.toNat
        match m.err with
        | some e => d.chanFail n c m e
        | none => m.dev.abortEnds n c 0
  else if d.chanWaits n c then d.abortEnds n c x.count.toNat
  else match d.running n with
    | none => d
    | some _ =>
      let blocks := (x.count.toNat + 255) / 256
      let (d, v) := d.free
      let stopAt := min x.count.toNat (256 * (1 + v % max blocks 1))
      if stopAt = x.count.toNat && !x.chain then d.setChan n c { x with abrt := false }
      else
        let m := d.chanMove n c stopAt
        match m.err with
        | some e => d.chanFail n c m e
        | none => m.dev.abortEnds n c (x.count.toNat - stopAt)

/-- A write of channel `c` that left the device has failed (R400, R461): it stops the channel while that runs. Its offset
is known where it belongs to the descriptor that has just ended. DESIGN CHOICE, log entry 176. -/
def chanWriteLost (d : Dev) (n c code pa : Nat) : Dev :=
  let x := d.chan n c
  let off := pa - x.dst.toNat
  let here := x.loadNext && !x.vaMode && !x.dfix && decide (x.dst.toNat ≤ pa) && decide (off < x.count.toNat)
  let f : LateFail := { ch := c, code := code, pa := pa, off := if here then off else 0 }
  if x.st == .running then
    ((d.setDrill n { d.drill n with late := (d.drill n).late ++ [f] }).afterAcks n c none).getD d
  else d.noteLate n f

/-- LATE_WRITE_FAILURE (R461): it stops a channel whose run it belongs to, and is recorded for one that has ended. -/
def lateWriteFailure (d : Dev) (n : Nat) : Dev :=
  match (d.drill n).late with
  | [] => d
  | f :: rest =>
    if !d.domOn 75 then d
    else if !f.old && (d.chan n f.ch).st == .running then (d.afterAcks n f.ch none).getD d
    else (d.setDrill n { d.drill n with late := rest }).noteLate n f

end Dev
end Sys2Proof.Machine
end

