-- ==== Sys2Proof/Machine/Hedge.lean ====
section
/-! DEFINITION. Hedgerow bonds: bring-up, what arrives and how it is served, replay, and how a bond
goes down (R389-R401). -/

namespace Sys2Proof.Machine
namespace Dev

/-- Source 0x620 + b. -/
def bondEvent (d : Dev) (b : Nat) : Dev := d.occur (0x620 + b)

/-- The base of peer window `b` (R26). -/
def peerBase (b : Nat) : Nat := 0x2000_0000_0000 + b * 2 ^ 40

/-- Reports a failed write that left the device, with CODE 0x31 (R400, R401, R407). DEDUCED, log entry 82. -/
def writeLost (d : Dev) (who : Option WOrig) (pa : Nat) : Dev :=
  match who with
  | some (.thread t k) => d.asyncStore t k 0x31 pa t none
  | some (.seed t k r sid) => d.asyncStore t k 0x31 pa r (some sid)
  | some (.chan n c) => if d.domOn 75 then d.chanWriteLost n c 0x31 pa else d
  | some .host => d.bump 0x3320 1
  | none => d

/-- The read that a thread waits for ends. -/
def readEnds (d : Dev) (t k : Nat) (r : Except AccErr (List W8)) : Dev :=
  match (d.thread t k).park with
  | .ldx op => d.ldxDone t k op r
  | _ => d

/-- Who waits for an outbound read is told how it ended. -/
def waiterEnds (d : Dev) (w : Waiter) (r : Except AccErr (List W8)) : Dev :=
  match w with
  | .thread t k => d.readEnds t k r
  | .taken => d

/-- LDX reads that found no tag look again (R392, R402). -/
def retryReads (d : Dev) : Dev := (d.threads.map Prod.fst).foldl (fun d i => d.ldxIssue (i / 4) (i % 4)) d

/-! Bring-up (R372, R394, R395). -/

/-- Sends a TRAIN unit: bond number and width in PARAM [63:48], buffer sizes in [47:16], and the device's serial
number, for which R390 names no field. DEDUCED, log entry 80. -/
def sendTrain (d : Dev) (b : Nat) : Dev :=
  let w := fld (d.obj 0x3400 (b + 1)) 30 28
  d.bondEmit b { seq := 0, type := 0xF2, addr := 0, tag := 0, status := 0, bytes := 0, data := [] }
    ((b * 256 + w) * 2 ^ 32 + 1024 * 2 ^ 16 + 1024)

/-- Starts at step 1 of R394. DEDUCED, log entry 80. -/
def bondTrain (d : Dev) (b : Nat) : Dev :=
  let x := d.bond b
  let ls := bondLanes b (d.obj 0x3400 (b + 1))
  (d.setBond b { x with st := .training, lanes := ls.length, ranks := ls, unit := 0, alignAt := none,
                        aligned := false, peer := none, mixed := false, txSeq := 0, rxSeq := 0, acked := 0,
                        txq := [], replay := [], nakSent := false, crq := 0, crs := 0,
                        retq := 0, rets := 0, reads := [], rounds := 0 }).sendTrain b

/-- A bond that is UP goes down (R401): its event, and the end of every read and write outstanding. -/
def bondLose (d : Dev) (b : Nat) : Dev :=
  let x := d.bond b
  if x.st != .up then d
  else
    let d := (d.setBond b { x with st := .training, replay := [], txq := [], reads := [] }).bondEvent b
    let d := x.reads.foldl (fun d r => d.waiterEnds r.who (.error .errCompl)) d
    (x.replay ++ x.txq).foldl (fun d p => if p.type = 0x02 then d.writeLost p.who (peerBase b + p.addr) else d) d

/-- BOND_DOWN (R393, R401): no ACK progress on an outstanding packet; the bond restarts. -/
def bondDown (d : Dev) (b : Nat) : Dev :=
  let x := d.bond b
  if x.st == .up && !x.replay.isEmpty then (d.bondLose b).bondTrain b else d

/-- A write of 0x3400 (R371, R372, R395). DEDUCED, log entry 70. -/
def bondCfgWrite (d : Dev) (b v : Nat) : WRes :=
  let old := d.obj 0x3400 (b + 1)
  let w := fld v 30 28
  let ls := bondLanes b v
  need (fld v 23 0 == 0 && decide (w ≤ 3) && fld v 27 26 % 2 ^ w == 0 && (w != 3 || (b % 4 == 0 && fld v 27 26 == 0))) .range <|
  need (!(bitN old 31 && fld old 30 26 != fld v 30 26)) .busy <|
  if bitN v 31 && !bitN old 31 then
    need ((laneQuads ls).all (fun c => d.domOn (quadDom c))) .off <|
    need (!(ls.any (fun l => d.hl.lanesFailed.getLsbD l))) .busy <|
    need (!(ls.any (d.laneTaken none (some b)))) .conflict <|
    .ok ((d.setObj 0x3400 (b + 1) v).bondTrain b)
  else if !bitN v 31 && bitN old 31 then
    let d := d.bondLose b
    .ok ((d.setObj 0x3400 (b + 1) v).setBond b { resends := (d.bond b).resends, refused := (d.bond b).refused })
  else .ok (d.setObj 0x3400 (b + 1) v)

/-- ALIGN (R389, R394): lanes are deskewed. -/
def bondAlign (d : Dev) (b : Nat) : Dev := d.setBond b { d.bond b with aligned := (d.bond b).st != .disabled }

/-- Nanoseconds of 8,192 codewords of 5,440 bits at 56.25 Gbit/s, rounded down. -/
def alignPeriod : Nat := 792257

/-- ALIGN units leave every 8,192 codewords (R389). DEDUCED, log entry 81. -/
def alignTick (d : Dev) : Dev :=
  d.bonds.foldl (fun d y =>
    let due := match y.2.alignAt with | none => true | some a => decide (a + alignPeriod ≤ d.mono)
    if y.2.st != .disabled && due then d.alignEmit y.1 else d) d

/-- TRAIN (R394): the peer's bond number, serial number, width and buffer sizes. Units of one training that name two
bonds or two devices do not agree. DEDUCED, log entry 80. -/
def bondTrained (d : Dev) (b : Nat) (p : PeerTrain) : Dev :=
  let x := d.bond b
  let differs : Bool := match x.peer with
    | some q => q.bond != p.bond || q.serial != p.serial
    | none => false
  if x.st == .training then d.setBond b { x with peer := some p, mixed := x.mixed || differs } else d

/-- The quad domains of a bond's lanes are ON (R371): an 8-lane bond needs both. -/
def bondLanesOn (d : Dev) (b : Nat) : Bool :=
  (laneQuads (bondLanes b (d.obj 0x3400 (b + 1)))).all (fun c => d.domOn (quadDom c))

/-- BOND_UP (R371, R394): step 5, or MISMATCH where the peer's serial number is not the one expected. -/
def bondUp (d : Dev) (b : Nat) : Dev :=
  let x := d.bond b
  match x.st, x.peer with
  | .training, some p =>
    let want := d.obj 0x3403 (b + 1)
    if !x.aligned || x.mixed || p.lanes != x.lanes || !d.bondLanesOn b then d
    else if want ≠ 0 ∧ want ≠ p.serial then d.setBond b { x with st := .mismatch }
    else (d.setBond b { x with st := .up, txSeq := 0, rxSeq := 0, acked := 0, crq := p.q, crs := p.s }).bondEvent b
  | _, _ => d

/-- Lanes, of a list, that a mask by position names. -/
def maskLanes (ls : List Nat) (m : Nat) : List Nat :=
  ((List.range ls.length).filter (bitN m)).map (fun i => ls.getD i 0)

/-- LANE_LOCK_TIMEOUT (R394): of the bond's lanes those in `mask` have locked; ranks go in ascending lane order.
DEDUCED, log entry 81. -/
def laneLockTimeout (d : Dev) (b mask : Nat) : Dev :=
  let x := d.bond b
  let ls := maskLanes (bondLanes b (d.obj 0x3400 (b + 1))) mask
  let n := ls.length
  let w := if 8 ≤ n then 8 else if 4 ≤ n then 4 else if 2 ≤ n then 2 else n
  if x.st != .training then d
  else if n ≠ 0 ∧ 2 ^ fld (d.obj 0x3400 (b + 1)) 25 24 ≤ w then d.setBond b { x with lanes := w, ranks := ls.take w }
  else d.bondTrain b

/-- MISMATCH_RETRY (R394). -/
def mismatchRetry (d : Dev) (b : Nat) : Dev := if (d.bond b).st == .mismatch then d.bondTrain b else d

/-! What arrives (R391-R393). -/

/-- Packets that an ACK covers leave the replay buffer; credits come back (R392, R393). -/
def bondAck (d : Dev) (b : Nat) (c : Ctl) : Dev :=
  let x := d.bond b
  let n := (c.ack + 4096 - x.acked) % 4096
  let n := if n ≤ x.replay.length then n else 0
  let x := { x with replay := x.replay.drop n, acked := if n = 0 then x.acked else c.ack,
                    rounds := if n = 0 then x.rounds else 0, crq := x.crq + c.crq, crs := x.crs + c.crs }
  (d.setBond b x).bondPump b (x.txq.length + 1)

/-- IDLE (R392). -/
def bondIdle (d : Dev) (b : Nat) (c : Ctl) : Dev := if (d.bond b).st == .up then d.bondAck b c else d

/-- Sends NAK once (R393). -/
def bondNak (d : Dev) (b : Nat) : Dev :=
  let x := d.bond b
  if x.st != .up || x.nakSent then d
  else (d.setBond b { x with nakSent := true }).bondEmit b { seq := 0, type := 0xF0, addr := 0, tag := 0, status := 0, bytes := 0, data := [] } 0

/-- Resends every packet not acknowledged; after four resends without ACK progress the bond goes down (R393). -/
def bondResend (d : Dev) (b : Nat) : Dev :=
  let x := d.bond b
  if x.replay.isEmpty then d
  else if 4 ≤ x.rounds then d.bondDown b
  else
    let d := d.setBond b { x with rounds := x.rounds + 1, resends := satAdd max64 x.resends 1 }
    x.replay.foldl (fun d p => d.bondEmit b p 0) d

/-- NAK (R393). -/
def bondNaked (d : Dev) (b : Nat) (c : Ctl) : Dev := if (d.bond b).st == .up then (d.bondAck b c).bondResend b else d
/-- REPLAY_TIMEOUT (R393). -/
def replayTimeout (d : Dev) (b : Nat) : Dev := if (d.bond b).st == .up then d.bondResend b else d
/-- IDLE_SEND (R393). -/
def idleSend (d : Dev) (b : Nat) : Dev :=
  if (d.bond b).st == .up then d.bondEmit b { seq := 0, type := 0x00, addr := 0, tag := 0, status := 0, bytes := 0, data := [] } 0 else d

/-- Takes a sequenced packet of `units` units in order, or discards it and asks for a resend (R393).
DEDUCED, log entry 80. -/
def bondTake (d : Dev) (b seq units : Nat) (c : Ctl) (response : Bool) (serve : Dev → Dev) : Dev :=
  let x := d.bond b
  if x.st != .up then d
  else if seq ≠ (x.rxSeq + 1) % 4096 then d.bondNak b
  else
    let x := { x with rxSeq := seq, nakSent := false, retq := if response then x.retq else x.retq + units,
                      rets := if response then x.rets + units else x.rets }
    serve ((d.setBond b x).bondAck b c)

/-- Where an inbound access lies, or its STATUS (R397, R400). -/
def inbound (d : Dev) (b addr n : Nat) : Except Nat Nat :=
  let pa := d.obj 0x3404 (b + 1) + addr
  let w := window pa
  if d.obj 0x3405 (b + 1) < addr + n then .error 1
  else if w = 0 ∨ 7 ≤ w ∨ window (pa + n - 1) ≠ w then .error 2
  else if !d.backed pa then .error 3 else .ok pa

/-- Counts a refused inbound access; source 0x620 + b at most once per ms (R400). -/
def inboundRefused (d : Dev) (b : Nat) : Dev :=
  let x := d.bond b
  let d := d.setBond b { x with refused := x.refused + 1 }
  if onePerMs d.mono x.evAt then (d.setBond b { d.bond b with evAt := some d.mono }).bondEvent b else d

/-- HEDGEROW_READ (R397, R398, R400). -/
def hedgeRead (d : Dev) (b seq tag addr n : Nat) (c : Ctl) : Dev :=
  d.bondTake b seq 1 c false (fun d =>
    let answer (d : Dev) (st : Nat) (bs : List W8) : Dev :=
      d.bondQueue b { seq := 0, type := 0x81, addr := 0, tag := tag, status := st, bytes := n, data := bs }
    match d.inbound b addr n with
    | .error st => answer (d.inboundRefused b) st []
    | .ok pa => match d.memRead (.port (b / 2) false) 0 pa n with
      | (d, .ok bs) => answer d 0 bs
      | (d, .error _) => answer (d.inboundRefused b) 4 [])

/-- HEDGEROW_WRITE (R397, R398, R400). -/
def hedgeWrite (d : Dev) (b seq addr : Nat) (bs : List W8) (c : Ctl) : Dev :=
  d.bondTake b seq (1 + (bs.length + 31) / 32) c false (fun d =>
    let fail (d : Dev) (st : Nat) : Dev :=
      (d.inboundRefused b).bondQueue b { seq := 0, type := 0x82, addr := addr, tag := 0, status := st, bytes := 0, data := [] }
    match d.inbound b addr bs.length with
    | .error st => fail d st
    | .ok pa => match d.memWrite pa bs with
      | (d, .ok _) => d
      | (d, .error _) => fail d 4)

/-- RDATA (R399, R400): the read with the tag ends; late data is discarded. -/
def hedgeRdata (d : Dev) (b seq tag status : Nat) (bs : List W8) (c : Ctl) : Dev :=
  d.bondTake b seq (1 + (if status = 0 then (bs.length + 31) / 32 else 0)) c true (fun d =>
    let x := d.bond b
    match x.reads.find? (fun r => r.tag == tag) with
    | none => d
    | some r =>
      let d := d.setBond b { x with reads := x.reads.filter (fun q => q.tag != tag) }
      (d.waiterEnds r.who (if status = 0 then .ok (padTo r.n bs) else .error .errCompl)).retryReads)

/-- WERR (R400): the last write made at the offset failed, and its originator is told. DEDUCED, log entry 82. -/
def hedgeWerr (d : Dev) (b seq addr : Nat) (c : Ctl) : Dev :=
  d.bondTake b seq 1 c true (fun d => d.writeLost (SMap.find (d.bond b).writers addr) (peerBase b + addr))

/-- HEDGEROW_READ_TIMEOUT (R399). -/
def hedgeTimeout (d : Dev) (b tag : Nat) : Dev :=
  let x := d.bond b
  match x.reads.find? (fun r => r.tag == tag) with
  | none => d
  | some r =>
    let d := d.setBond b { x with reads := x.reads.filter (fun q => q.tag != tag) }
    (d.waiterEnds r.who (.error .timeout)).retryReads

/-- 0x3401. -/
def bondState (d : Dev) (b : Nat) : Nat :=
  let x := d.bond b
  x.st.code + (if x.st == .up then x.lanes * 16 else 0)

end Dev
end Sys2Proof.Machine
end

