-- ==== Sys2Proof/Machine/Pcie.lean ====
section
/-! DEFINITION. The PCIe block: host accesses, AtomicOps, completions, MSI-X, resets and link state
(R288, R295, R402-R408). The mailbox of BAR0 is in `Dict`. -/

namespace Sys2Proof.Machine
namespace Dev

/-- The identity that the endpoint shows in configuration space (R402): Vendor and Device ID, Revision ID, Subsystem
Vendor ID and Subsystem ID, class code, and the Device Serial Number capability. -/
structure PcieIdent where
  vendor    : W16 := 0x1F9B
  device    : W16 := 0x0096
  revision  : W8
  subVendor : W16 := 0x1F9B
  subsystem : W16 := 0x0096
  cls       : BitVec 24 := 0x120000
  serial    : W64
  deriving DecidableEq, Repr

/-- Revision ID and serial number are those of 0x1000:03 and 0x1000:06. -/
def pcieIdent : PcieIdent := { revision := Config.stepping.setWidth 8, serial := Config.serial }

/-- The endpoint ends a request with Completer Abort, an uncorrectable error (R33, R408): the read counts as aborted.
DEDUCED, log entry 86. -/
def completerAbort (d : Dev) : Dev := ((d.bump 0x3320 2).occur 0x63D).emit (.completion false [])

/-- The endpoint ends a request with Unsupported Request, an uncorrectable error (R403, R408).
DEDUCED, log entry 86. -/
def unsupported (d : Dev) : Dev := (d.occur 0x63D).emit .unsupported

/-- The host's memory requests are taken: PD69 ON and the link up. DEDUCED, log entry 16. -/
def hostReaches (d : Dev) : Bool := d.domOn 69 && d.pcie.up

/-! BAR2 (R33, R403). -/

/-- A host write of BAR2 that fails is discarded and counted (R33, R408). DEDUCED, log entry 86. -/
def bar2Write (d : Dev) (o : Nat) (bs : List W8) : Dev :=
  if 2 ^ 36 ≤ o then d
  else match d.busWrite .host o bs with
    | (d, .ok _) => d
    | (d, .error _) => d.bump 0x3320 1

/-- A host read of BAR2: its data, or Completer Abort (R33, R408). DEDUCED, log entries 86 and 87. -/
def bar2Read (d : Dev) (o n : Nat) : Dev :=
  if 2 ^ 36 ≤ o then d.unsupported
  else match d.busRead .host 0 o n with
    | (d, .ok bs) => d.emit (.completion true bs)
    | (d, .error _) => d.completerAbort

/-- PCIE_ATOMICOP (R288): FetchAdd, Swap and CAS of 4 and 8 bytes at a bank; a 16-byte CAS is unsupported.
`op`: 0 FetchAdd, 1 Swap, 2 CAS, as the bank operations are numbered. -/
def pcieAtomic (d : Dev) (op n o x cmp : Nat) : Dev :=
  if !d.hostReaches then d
  else if d.pcie.d3 || n = 16 || 2 ^ 36 ≤ o then d.unsupported
  else if o % n ≠ 0 then d.completerAbort
  else match d.bankDo .host 0 op n o x cmp with
    | (d, .ok old) => d.emit (.completion true (toLE n old))
    | (d, .error _) => d.completerAbort

/-! Outbound reads (R405, R407). -/

/-- An outbound read with this tag ends with `r`. -/
def outboundEnds (d : Dev) (tag : Nat) (r : Nat → Except AccErr (List W8)) : Dev :=
  match d.pcie.reads.find? (fun x => x.tag == tag) with
  | none => d
  | some x =>
    let d := { d with pcie := { d.pcie with reads := d.pcie.reads.filter (fun y => y.tag != tag) } }
    (d.waiterEnds x.who (r x.len)).retryReads

/-- A poisoned TLP has arrived (R408): counted, and an uncorrectable error. -/
def poisonedTlp (d : Dev) : Dev := (d.bump 0x3320 4).occur 0x63D

/-- PCIE_COMPLETION (R405, R408): data, or UR or CA status; a poisoned completion ends as an error does.
DEDUCED, log entries 84 and 86. -/
def pcieCompletion (d : Dev) (tag : Nat) (st : CplStatus) (bs : List W8) : Dev :=
  let d := if st = .poisoned then d.poisonedTlp else d
  d.outboundEnds tag (fun n => if st = .success then .ok (padTo n bs) else .error .errCompl)

/-- PCIE_COMPLETION_TIMEOUT (R405, R408): of the read that has waited longest. DEDUCED, log entries 84 and 86. -/
def pcieTimeout (d : Dev) : Dev :=
  match d.pcie.reads with
  | x :: _ => ((d.outboundEnds x.tag (fun _ => .error .timeout)).bump 0x3320 3).occur 0x63D
  | [] => d

/-! MSI-X (R406). -/

/-- A message that was pending goes once its vector and the function are unmasked, and Bus Master Enable is 1
(R404, R406). DEDUCED, log entry 175. -/
def msixRelease (d : Dev) (v : Nat) : Dev :=
  let p := d.pcie
  if p.pba.get false v && p.msixEn && p.busMaster && !p.funcMask && !(p.vecs.get {} v).mask then
    ({ d with pcie := { p with pba := p.pba.put v false } }).emit (.msix v)
  else d

/-- The Function Mask, MSI-X Enable or Bus Master Enable changes. PRESUMED, log entry 85. -/
def msixControl (d : Dev) (en mask bme : Bool) : Dev :=
  let d := { d with pcie := { d.pcie with msixEn := en, funcMask := mask, busMaster := bme } }
  (d.pcie.pba.map Prod.fst).foldl msixRelease d

/-- A read of the MSI-X table or PBA at BAR0 offset `o` (R403): 16 bytes a vector. -/
def msixRead (d : Dev) (o : Nat) : Nat :=
  if 0x1_0000 ≤ o ∧ o < 0x1_8000 then
    let x := d.pcie.vecs.get {} ((o - 0x1_0000) / 16)
    match o % 16 / 4 with
    | 0 => x.addr.toNat % 2 ^ 32 | 1 => x.addr.toNat / 2 ^ 32 | 2 => x.data.toNat | _ => b2n x.mask
  else if 0x1_8000 ≤ o ∧ o < 0x1_8100 then
    (List.range 32).foldl (fun a i => a + b2n (d.pcie.pba.get false ((o - 0x1_8000) / 4 * 32 + i)) * 2 ^ i) 0
  else 0

/-- A 4-byte write of the MSI-X table at BAR0 offset `o`. DEDUCED, log entry 87. -/
def msixWrite (d : Dev) (o v : Nat) : Dev :=
  if 0x1_0000 ≤ o ∧ o < 0x1_8000 then
    let n := (o - 0x1_0000) / 16
    let p := d.pcie
    let x := p.vecs.get {} n
    let x := match o % 16 / 4 with
      | 0 => { x with addr := BitVec.ofNat 64 (putFld x.addr.toNat 31 0 (v / 4 * 4)) }
      | 1 => { x with addr := BitVec.ofNat 64 (putFld x.addr.toNat 63 32 v) }
      | 2 => { x with data := BitVec.ofNat 32 v }
      | _ => { x with mask := bitN v 0 }
    ({ d with pcie := { p with vecs := p.vecs.put n x } }).msixRelease n
  else d

/-! Link state (R407, R408). -/

/-- PCIE_LINK_UP. -/
def pcieUp (d : Dev) : Dev :=
  if d.domOn 69 && !d.pcie.up then ({ d with pcie := { d.pcie with up := true } }).occur 0x63D else d

/-- The block returns to its defaults: every outbound read ends with the error-completion outcome. -/
def pcieBlockReset (d : Dev) : Dev :=
  let rs := d.pcie.reads
  rs.foldl (fun d r => d.waiterEnds r.who (.error .errCompl)) { d with pcie := { nextTag := d.pcie.nextTag } }

end Dev
end Sys2Proof.Machine
end

