-- ==== Sys2Proof/Machine/Power.lean ====
section
/-! DEFINITION. Power domains, device states, supplies and clocks of the Headland (R34-R40, R305,
R509-R524). -/

namespace Sys2Proof.Machine

/-- Domains that a domain needs (R38), PD00 apart. -/
def needs (k : Nat) : List Nat :=
  if k = 0 ∨ k = 69 ∨ k = 70 then []
  else if k ≤ 48 then [70, granDom ((k - 1) / 12)]
  else [70]
where
  granDom (q : Nat) : Nat := 49 + q

/-- Depth in the table of R38. -/
def depth (k : Nat) : Nat := if k = 69 ∨ k = 70 then 0 else if 1 ≤ k ∧ k ≤ 48 then 2 else 1

/-- The domains, in order of depth and then of number (R518). -/
def domOrder : List Nat := [69, 70] ++ List.range' 49 20 ++ List.range' 71 5 ++ List.range' 1 48

/-- Domains that need `k`. -/
def neededBy (k : Nat) : List Nat := domOrder.filter (fun m => (needs m).contains k)

/-- Boot path domains by BOOT (R537). -/
def bootPath (b : BitVec 2) : List Nat :=
  match b.toNat with
  | 0 => [69] | 1 => [70, 61] | _ => []

/-- Domains with a PLL of their own (R512). -/
def hasPll (k : Nat) : Bool := decide (53 ≤ k) && decide (k ≤ 70)

namespace Dev

def setHl (d : Dev) (f : Hl → Hl) : Dev := { d with hl := f d.hl }

/-- A session ends: sequence state, held segments and object claims are dropped (R492). Its operation in progress goes
on, and the answer is discarded (R486). DEDUCED, log entry 124. -/
def endSession (d : Dev) (s : Nat) : Dev :=
  let x := d.dict
  { d with dict := { x with
      sessions := x.sessions.del s, oclaims := x.oclaims.filter (fun c => c.session != s)
      busy := x.busy.map (fun b => if b.ses = s then { b with drop := true } else b), waiting := x.waiting.filter (fun w => w.ses != s) } }

/-- The mailbox loses its host (R486). DEDUCED, log entry 124. -/
def mailboxReset (d : Dev) : Dev :=
  let d := d.endSession 0
  { d with dict := { d.dict with mbStat := 0 } }

/-- PCIE_RESET (R407): hot reset, link-down or PCIE_PERST_N. DEDUCED, log entry 124. -/
def pcieReset (d : Dev) : Dev :=
  let d := if d.domOn 69 && d.pcie.up then d.occur 0x63D else d
  d.pcieBlockReset.mailboxReset

/-- The PTM time of the link, which is tied to the PCIe block, returns to its cold value (R476). -/
def ptmCold (d : Dev) : Dev := { d with alm := { d.alm with ptmAlm := 0, ptmMaster := 0 } }

/-! What a domain's units come to when it leaves ON and when it reaches ON. -/

/-- A tiller loses power: its page of the Event Controller keeps its records until the domain is ON
again (R369). -/
def tillerGone (d : Dev) (t : Nat) : Dev :=
  let d := d.endTillerSeeds t
  let d := (List.range 4).foldl (fun d k =>
    let x := d.thread t k
    d.setThread t k { sfr := x.sfr, sdone := x.sdone, sfault := x.sfault, asp := x.asp, asq := x.asq, asOvf := x.asOvf,
                      threrr := x.threrr, evcfg := x.evcfg }) d
  ((d.setTiller t {}).setStanding t false []).setStanding t true []

/-- A tiller at its cold values (R170, R369). -/
def tillerCold (d : Dev) (t : Nat) : Dev :=
  let d := { d with threads := d.threads.filter (fun p => p.1 / 4 != t), mem := d.mem.clearWhere (inTiller t) }
  ((((d.setTiller t { epoch := d.fc }).setStanding t false []).setStanding t true []).unshow t)

/-- Bonds, and ports whose MAC lies in another quad, with a lane in quad `c` lose it. -/
def lanesGone (d : Dev) (c : Nat) : Dev :=
  let d := (List.range 16).foldl (fun d b =>
    if (laneQuads (bondLanes b (d.obj 0x3400 (b + 1)))).contains c && (d.bond b).st != .disabled then
      (if b / 2 = c then d.bondLose b else (d.bondLose b).bondTrain b) else d) d
  (List.range 16).foldl (fun d p =>
    if p / 2 ≠ c ∧ (laneQuads (macLanes p (fld (d.portCfg p) 30 28))).contains c then d.linkFault p true false else d) d

/-- What leaving ON does to the units of domain `k` (R87, R232, R253, R369, R373, R465, R508, R519).
DEDUCED, log entry 124. -/
def domGone (d : Dev) (k : Nat) : Dev :=
  let d :=
    if k ≤ 48 then (d.tillerGone (2 * k - 2)).tillerGone (2 * k - 1)
    else if 61 ≤ k ∧ k ≤ 68 then (((d.lanesGone (k - 61)).groupFree (k - 61)).quadExpressLost (k - 61)).quadCold (k - 61)
    else if k = 69 then d.pcieReset.ptmCold
    else if k = 70 then { d with pcie := { d.pcie with reads := [] } }
    else if 71 ≤ k ∧ k ≤ 74 then d.engineCold (k - 71)
    else if k = 75 then d.seedsLoseChecks.checksCold
    else d
  d.clearTied k

/-- Domains that have just left ON: the Piste bound of every path touched is void, windows under
assembly are cut short, and the units lose power. -/
def domsGone (d : Dev) (ks : List Nat) : Dev :=
  let d := d.voidSlots (fun e s => ks.any (fun k => (d.slotDoms e s).contains k))
  let d := ks.foldl (fun d k => d.furrowsLose k) d
  (domOrder.reverse.filter ks.contains).foldl (fun d k => d.domGone k) d

/-- What reaching ON from off does: contents cleared, registers cold (R170, R238, R303, R304, R369, R384).
DEDUCED, log entry 53. -/
def domCold (d : Dev) (k : Nat) : Dev :=
  let d := d.clearTied k
  if k ≤ 48 then (d.tillerCold (2 * k - 2)).tillerCold (2 * k - 1)
  else if k ≤ 52 then
    let q := k - 49
    { d with mem := d.mem.clearWhere (inQuadrant q), stlb := d.stlb.del q, scrub := d.scrub.del q, glast := d.glast.del q,
             xiLow := d.xiLow.filter (fun p => p.1 / 512 != q), atoms := d.atoms.filter (fun p => p.1 / 96 != q),
             fabPri := d.fabPri.filter (fun p => p.1 / 0x2000 != q) }
  else if k ≤ 60 then { d with mem := d.mem.clearWhere (inStack (k - 53)), scrub := d.scrub.del (4 + (k - 53)) }
  else if k ≤ 68 then d.quadCold (k - 61)
  else if k = 69 then d.pcieBlockReset.ptmCold
  else if k = 70 then
    { d with threads := [], evc := {}, alm := {}, partners := {}, xiLow := [], hl := { d.hl with gpPulse := [] },
             fabPri := d.fabPri.filter (fun p => p.1 / 0x2000 != 4) }
  else if k ≤ 74 then { d.engineCold (k - 71) with mem := d.mem.clearWhere (inStore (k - 71)) }
  else d.checksCold

/-- Source 0x590 + k: the domain has reached ON, OFF, RETENTION or LOST (R516). -/
def domEvent (d : Dev) (k : Nat) : Dev := d.occur (0x590 + k)

/-! Watchdog counting (R528). -/

/-- The watchdog restarts with the full timeout. DEDUCED, log entries 126 and 138. -/
def wdRestart (d : Dev) : Dev :=
  let on := d.hl.wdCfg.getLsbD 31 && (d.hl.dev == .ready || d.hl.dev == .run)
  d.setHl (fun h => { h with wdRun := on, wdWarned := false, wdLeft := if on then fld h.wdCfg.toNat 15 0 * 4000 else 0 })

/-- The watchdog does not count (R564). -/
def wdFrozen (d : Dev) : Bool := d.inForce && d.hl.wdCfg.getLsbD 30

/-! Device states (R513, R514). -/

def isActive (x : Domain) : Bool := x.st == .waking || x.st == .on || x.st == .sleeping
def activeDom (d : Dev) (k : Nat) : Bool := isActive (d.dom k)
/-- A domain outside the boot path is ON, WAKING or SLEEPING. -/
def beyondBoot (d : Dev) : Bool := domOrder.any (fun k => d.activeDom k && !(bootPath d.hl.boot).contains k)

/-- EP0 as the FV96 itself configures it for BOOT = 0b01 (R538). DEDUCED, log entry 126. -/
def bootPort (d : Dev) : Dev :=
  if d.hl.bootDue && d.domOn 61 && d.domOn 70 then
    let v := 2 ^ 31 + fld (d.obj 0x2060 0) 2 0 * 2 ^ 28 + 2 ^ 27
    (WRes.orElse (d.portCfgWrite 0 v) d).setHl (fun h => { h with bootDue := false })
  else d

/-- The device enters READY or RUN from another state than these: the watchdog restarts (R528), and with
BOOT = 0b01 the FV96 configures EP0 and 0x1031 (R538). DEDUCED, log entry 126. -/
def enterReady (d : Dev) : Dev :=
  let b := d.hl.boot == 1
  let d := d.setHl (fun h => { h with dev := .ready, leaving := false, dwake := false, bootDue := b })
  let d := d.wdRestart
  if b then (d.setObj 0x1031 0 1).bootPort else d

/-- The device enters FALLOW (R514). -/
def enterFallow (d : Dev) : Dev :=
  (d.setHl (fun h => { h with dev := .fallow, falling := false, leaving := false, dwake := false })).wdRestart

/-- The state that the domains' states give (R513, R514), and whether a device request has ended.
DEDUCED, log entries 125 and 126. -/
def settlePower (d : Dev) : Dev :=
  let h := d.hl
  let d :=
    if h.dev == .fallow then
      if (h.leaving && (d.beyondBoot || (bootPath h.boot).all d.domOn)) || (h.dwake && domOrder.any d.activeDom)
      then d.enterReady else d
    else d
  let d :=
    if d.hl.dev == .ready || d.hl.dev == .run then
      if d.hl.falling && !(domOrder.any d.activeDom) then d.enterFallow
      else d.setHl (fun h => { h with dev := if d.beyondBoot then .run else .ready })
    else d
  let moving := d.hl.fallowDue || d.hl.falling || d.hl.leaving ||
    domOrder.any (fun k => let x := d.dom k; x.waiting || x.st == .waking || x.st == .sleeping)
  if moving then d else d.setHl (fun h => { h with devOpen := false })

/-! Loss (R40, R512, R523, R524). -/

/-- Domain `k` is LOST with `code`, and with it every domain that needs it and has power or waits for it. A stack
in retention is hit only where the clock that its request waits for does not come (R512, R524).
DEDUCED, log entry 129. -/
def domLose (d : Dev) (k code : Nat) : Dev :=
  let hit (m : Nat) : Bool := isActive (d.dom m) || ((d.dom m).waiting && (code == 4 || (d.dom m).st != .retention))
  let near := (neededBy k).filter hit
  let ks := k :: (near ++ near.flatMap (fun m => (neededBy m).filter hit)).eraseDups
  let gone := ks.filter (fun m => (d.dom m).st == .on)
  let d := ks.foldl (fun d m => d.modDom m (fun x =>
    { st := .lost, lost := BitVec.ofNat 32 (satAdd (2 ^ 32 - 1) x.lost.toNat 1),
      cause := BitVec.ofNat 16 (k * 256 + if m = k then code else 3) })) d
  let d := d.domsGone gone
  (ks.foldl (fun d m => d.domEvent m) d).settlePower

/-- RAIL_DROOP, RAIL_FLOOR (R523). -/
def railFault (d : Dev) (k code : Nat) : Dev :=
  if k != 0 && (d.dom k).monitored d.hl.time.toNat then d.domLose k code else d

/-- DROOP_RIDE_THROUGH (R523): a dip of a monitored rail is counted. -/
def rideThrough (d : Dev) (k : Nat) : Dev :=
  if k != 0 && (d.dom k).monitored d.hl.time.toNat then
    d.setHl (fun h => { h with dips := BitVec.ofNat 32 (satAdd (2 ^ 32 - 1) h.dips.toNat 1) })
  else d

/-- PLL_LOCK_TIMEOUT (R512): the PLL that domain `k` wakes on has not locked. -/
def pllTimeout (d : Dev) (k : Nat) : Dev :=
  let x := d.dom k
  if hasPll k && x.st == .waking && !x.locked then d.domLose k 4 else d

/-- PLL_LOCK_LOSS (R512). -/
def pllLoss (d : Dev) (k : Nat) : Dev := if hasPll k && d.domOn k then d.domLose k 4 else d

/-! Waking (R518, R305). -/

/-- Stacks in retention whose request ON waits for PD70 start to leave it. -/
def retentionExits (d : Dev) : Dev :=
  (List.range' 53 8).foldl (fun d k =>
    let x := d.dom k
    if x.waiting && x.st == .retention && d.domOn 70 then
      d.setDom k { x with st := .waking, waiting := false, fromRet := true }
    else d) d

/-- INRUSH_TURN: the first waiting domain whose needed domains are ON starts to ramp. DEDUCED, log entry 128. -/
def inrushTurn (d : Dev) : Dev :=
  let may (k : Nat) : Bool :=
    let x := d.dom k
    x.waiting && (x.st == .off || x.st == .lost) && (needs k).all d.domOn
  let ramps := (domOrder.filter (fun k => let x := d.dom k; x.ramping && !x.monitored d.hl.time.toNat)).length
  match domOrder.find? may with
  | some k =>
    if 8 ≤ ramps then d
    else (d.modDom k (fun x => { x with st := .waking, waiting := false, ramping := true, rampAt := d.hl.time.toNat,
                                        railOk := false, locked := false, fromRet := false, toRet := false })).settlePower
  | none => d

/-- PLL_LOCK: step 3 of a wake; for a stack that leaves retention, Exit 2 of R305. DEDUCED, log entry 128. -/
def pllLock (d : Dev) (k : Nat) : Dev :=
  let x := d.dom k
  if x.st == .waking then d.setDom k { x with ramping := false, railOk := true, locked := true } else d

/-! Powering down (R519, R305). -/

/-- Domains begin to power down, those that need others first. DEDUCED, log entry 130. -/
def domsSleep (d : Dev) (ks : List (Nat × Bool)) : Dev :=
  let gone := (ks.map Prod.fst).filter (fun k => (d.dom k).st == .on)
  let d := ks.foldl (fun d (p : Nat × Bool) => d.modDom p.1 (fun x =>
    match x.st with
    | .on | .waking => { x with st := .sleeping, toRet := p.2, waiting := false, ramping := false, target := if p.2 then 2 else 0,
                                railOk := x.railOk || x.monitored d.hl.time.toNat }
    | .retention => if p.2 then { x with waiting := false, target := 2 }
        else { x with st := .sleeping, toRet := false, waiting := false, target := 0 }
    | .sleeping => x
    | .off | .lost => { x with waiting := false, target := 0 })) d
  let lost := (ks.map Prod.fst).filter (fun k => (d.dom k).st == .lost)
  let d := lost.foldl (fun d k => (d.modDom k (fun x => { x with st := .off })).domEvent k) d
  d.domsGone gone

/-- A domain reports ON; a stack of which one write has asked for ON and then for retention goes on to it. -/
def domReady (d : Dev) (k : Nat) : Dev :=
  let d := d.modDom k (fun x => { x with st := .on, fromRet := false, locked := false })
  let d := ((d.domEvent k).bootPort).retentionExits
  (if (d.dom k).target = 2 then d.domsSleep [(k, true)] else d).settlePower

/-- DOMAIN_ON: a wake from off ends. DEDUCED, log entry 128. -/
def domainOn (d : Dev) (k : Nat) : Dev :=
  let x := d.dom k
  if x.st == .waking && !x.fromRet && x.locked then (d.domCold k).domReady k else d

/-- RETENTION_EXIT_COMPLETE: contents are unchanged. DEDUCED, log entry 128. -/
def retentionExited (d : Dev) (k : Nat) : Dev :=
  let x := d.dom k
  if x.st == .waking && x.fromRet && x.locked then d.domReady k else d

/-- No domain that needs `k` still has power. DEDUCED, log entry 130. -/
def lastUp (d : Dev) (k : Nat) : Bool := (neededBy k).all (fun m => !d.activeDom m)

/-- DOMAIN_OFF_COMPLETE. DEDUCED, log entry 130. -/
def domainOff (d : Dev) (k : Nat) : Dev :=
  let x := d.dom k
  if x.st == .sleeping && !x.toRet && d.lastUp k then
    ((d.setDom k { x with st := .off, railOk := false, ramping := false, locked := false }).domEvent k).settlePower
  else d

/-- RETENTION_ENTRY_COMPLETE. -/
def retentionEntered (d : Dev) (k : Nat) : Dev :=
  let x := d.dom k
  if x.st == .sleeping && x.toRet then ((d.setDom k { x with st := .retention, toRet := false }).domEvent k).retentionExits.settlePower else d

/-! Domain requests (R39, R517). -/

/-- The refusal of one request by itself. -/
def domRefuses (d : Dev) (k v : Nat) : Option Status :=
  let x := d.dom k
  if 2 < v then some .range
  else if k = 0 then (if v ≠ 1 then some .range else if d.hl.dev == .fallow || d.hl.dev == .ready || d.hl.dev == .run then none else some .busy)
  else if v = 2 ∧ ¬ (53 ≤ k ∧ k ≤ 60 ∧ x.st == .on) then some .range
  else if !(d.hl.dev == .fallow || d.hl.dev == .ready || d.hl.dev == .run) then some .busy
  else if x.st == .waking || x.st == .sleeping then some .busy
  else none

/-- Whether the write's own requests leave domain `k` to be ON (R517). -/
def onAfter (d : Dev) (rs : List (Nat × Nat)) (k : Nat) : Bool :=
  match rs.find? (fun r => r.1 == k) with
  | some r => r.2 == 1
  | none => d.domOn k

/-- R39 for request `r` over the states that the write's requests `rs` produce. DEDUCED, log entry 129. -/
def domDepends (d : Dev) (rs : List (Nat × Nat)) (r : Nat × Nat) : Bool :=
  r.1 == 0 ||
  if r.2 = 1 then d.domOn r.1 || (needs r.1).all (d.onAfter rs)
  else (neededBy r.1).all (fun m =>
    match rs.find? (fun q => q.1 == m) with
    | some q => q.2 != 1
    | none => let x := d.dom m; !(x.st == .on || x.st == .waking || x.waiting))

/-- The requests of one write (0x2010) carried out together. Of several for one domain the last says what it comes to,
and a domain that an earlier one takes out of ON goes off first; a stack that is not ON goes to retention from ON.
DEDUCED, log entries 117 and 125. -/
def domApply (d : Dev) (rs : List (Nat × Nat)) : Dev :=
  let rs := rs.filter (fun r => r.1 != 0)
  let final := (rs.map Prod.fst).eraseDups.map (fun k => (k, ((rs.reverse.find? (fun r => r.1 == k)).map Prod.snd).getD 0))
  let on0 := d.domOn
  let d := d.domsSleep ((rs.filter (fun r => r.2 == 0 || (r.2 == 2 && on0 r.1))).map (fun r => (r.1, r.2 == 2)))
  let wakes := final.filter (fun r => r.2 == 1 || (r.2 == 2 && !on0 r.1))
  let d := wakes.foldl (fun d (r : Nat × Nat) =>
    d.modDom r.1 (fun x => if x.st == .on then { x with target := 1 } else { x with waiting := true, target := BitVec.ofNat 2 r.2 })) d
  let d := if wakes.any (fun r => (d.dom r.1).waiting) then d.setHl (fun h => { h with dwake := h.dev == .fallow, falling := false }) else d
  d.retentionExits.settlePower

/-- The requests of one write (0x2010), checked and carried out together (R39, R517). -/
def domRequests (d : Dev) (rs : List (Nat × Nat)) : WRes :=
  match rs.findSome? (fun r => d.domRefuses r.1 r.2) with
  | some s => .error s
  | none => need (rs.all (d.domDepends rs)) .dependency <| .ok (d.domApply rs)

/-! Device requests (R520). -/

/-- Domains `ks` power down; Loam stacks that are ON go to retention where 0x2002 says so. -/
def powerDown (d : Dev) (ks : List Nat) : Dev :=
  let keep (k : Nat) : Bool := decide (53 ≤ k) && decide (k ≤ 60) && ((d.dom k).st == .retention || (d.domOn k && d.obj 0x2002 0 == 1))
  d.domsSleep (ks.map (fun k => (k, keep k)))

/-- Domains `ks` are to wake. -/
def powerUp (d : Dev) (ks : List Nat) : Dev :=
  ks.foldl (fun d k => d.modDom k (fun x => if x.st == .on || x.st == .waking then { x with target := 1 }
    else { x with waiting := true, target := 1 })) d

/-- A write of 0x2001. DEDUCED, log entry 125. -/
def deviceRequest (d : Dev) (v : Nat) : WRes :=
  let h := d.hl
  need (decide (1 ≤ v) && decide (v ≤ 3)) .range <|
  need ((h.dev == .fallow || h.dev == .ready || h.dev == .run) && !h.devOpen) .busy <|
  let d := d.setHl (fun h => { h with devReq := BitVec.ofNat 8 v, devOpen := true })
  let fallow := h.dev == .fallow
  let outside := domOrder.filter (fun k => !(bootPath h.boot).contains k)
  let d := match v with
    | 1 => if fallow then d else d.setHl (fun h => { h with fallowDue := true })
    | 2 => if fallow then (d.setHl (fun h => { h with leaving := true })).powerUp (bootPath h.boot) else d.powerDown outside
    | _ => (d.setHl (fun h => { h with leaving := fallow })).powerUp domOrder
  .ok d.retentionExits.settlePower

/-- FALLOW_DELAY_EXPIRY: 10 ms after the response. DEDUCED, log entry 125. -/
def fallowExpiry (d : Dev) : Dev :=
  if d.hl.fallowDue then
    ((d.setHl (fun h => { h with fallowDue := false, falling := true })).powerDown domOrder).settlePower
  else d

/-- WAKE_TIMER_EXPIRY: acts as a READY request; the timer then reads 0. DEDUCED, log entry 127. -/
def wakeExpiry (d : Dev) : Dev :=
  let h := d.hl
  if h.dev == .fallow && !h.leaving && !h.dwake && d.obj 0x2004 0 != 0 then
    WRes.orElse ((({ (d.setObj 0x2004 0 0) with hl := { h with devOpen := false } } : Dev)).deviceRequest 2) d
  else d

/-! SAFE (R515, R523, R527, R578). -/

/-- Every domain is switched off at once and reads OFF; what `mark` leaves of its record stays. -/
def allOff (d : Dev) (mark : Domain → Domain) : Dev :=
  let gone := domOrder.filter d.domOn
  let d := { d with doms := d.doms.map (fun (p : Nat × Domain) => (p.1, mark { lost := p.2.lost, cause := p.2.cause })) }
  d.domsGone gone

/-- Entry to SAFE with a cause and its detail. -/
def enterSafe (d : Dev) (cause detail : Nat) : Dev :=
  let d := d.allOff id
  d.setHl (fun h => { h with
    dev := .safe, safeCause := BitVec.ofNat 8 cause, safeDetail := BitVec.ofNat 16 detail, safeTime := h.time
    devOpen := false, fallowDue := false, falling := false, leaving := false, dwake := false, bootDue := false
    wdRun := false, wdLeft := 0, wdWarned := false, gpio := [], gpHeld := 0, gpPulse := [] })

/-- States from which a fault enters SAFE (R514). -/
def mayFault (d : Dev) : Bool := !d.hl.por && !(d.hl.dev == .held || d.hl.dev == .safe)

/-- VDD_CORE_COLLAPSE: acts once VDD_CORE has been in range since the reset release (R582).
DESIGN CHOICE, log entry 132. -/
def coreCollapse (d : Dev) : Dev :=
  if d.mayFault && !(d.hl.dev == .cold && (d.hl.stage == .straps || d.hl.stage == .rails)) then
    (d.setHl (fun h => { h with coreRail := false })).enterSafe 4 0
  else d

/-- VDD_HL_FAULT. DESIGN CHOICE, log entry 132. -/
def hlFault (d : Dev) : Dev :=
  if d.mayFault then (d.setHl (fun h => { h with hlRail := false })).enterSafe 3 0 else d

/-! Clocks (R510, R511). -/

/-- DEDUCED, log entry 139. -/
def crystalSet (d : Dev) (on : Bool) : Dev := d.setHl (fun h => { h with xtal := on })
/-- DEDUCED, log entry 139. -/
def refclkSet (d : Dev) (on : Bool) : Dev := d.setHl (fun h => { h with refclk := on })

/-! Temperature (R525-R527). -/

/-- Whether the domain of sensor `s` (1 to 17) has power. DEDUCED, log entry 137. -/
def sensorOn (d : Dev) (s : Nat) : Bool :=
  if s ≤ 4 then d.domOn (48 + s)
  else if s = 5 then d.domOn 70
  else if s = 6 then (List.range' 71 4).any d.domOn
  else if s ≤ 14 then d.domOn (46 + s)
  else if s = 15 then (List.range' 61 4).any d.domOn
  else if s = 16 then (List.range' 65 4).any d.domOn
  else true

/-- 0x9030 of sensor `s`, as a 16-bit pattern. -/
def reading (d : Dev) (s : Nat) : Nat := if d.sensorOn s then (d.hl.temps.get 0x8000 s).toNat else 0x8000

/-- THERMAL_SAMPLE: readings of the 17 sensors in 1/16 °C. DEDUCED, log entry 137. -/
def thermalSample (d : Dev) (rs : List W16) : Dev :=
  if d.hl.por then d
  else
  let d := d.setHl (fun h => { h with temps := (List.range 17).map (fun i => (i + 1, rs.getD i 0x8000)) })
  let hot := (List.range' 1 17).find? (fun s => decide ((1760 : Int) ≤ sx 16 (d.reading s)))
  d.setHl (fun h => { h with hot := hot })

/-- The highest reading; `none` where no sensor reads. -/
def hottest (d : Dev) : Option Int :=
  (((List.range' 1 17).map d.reading).filter (fun r => r != 0x8000)).foldl
    (fun (m : Option Int) r => some (match m with | some y => max y (sx 16 r) | none => sx 16 r)) none

/-- The throttle step changes: source 0x63A, and a step other than 0 voids the Piste bound. -/
def setThrottle (d : Dev) (n : Nat) : Dev :=
  if d.hl.throttle.toNat = n then d
  else
    let d := (d.setHl (fun h => { h with throttle := BitVec.ofNat 2 n })).occur 0x63A
    if n = 0 then d else d.voidSlots (fun _ _ => true)

/-- THROTTLE_STEP_UP: a ms in which the highest reading exceeds the threshold. -/
def throttleUp (d : Dev) : Dev :=
  match d.hottest with
  | some r => if d.obj 0x9033 0 != 0 && decide (sx 8 (d.obj 0x9031 0) * 16 < r) then d.setThrottle (min 3 (d.hl.throttle.toNat + 1)) else d
  | none => d

/-- THROTTLE_STEP_DOWN: 10 ms more than 3 °C below the threshold. -/
def throttleDown (d : Dev) : Dev :=
  match d.hottest with
  | some r => if d.obj 0x9033 0 != 0 && decide (r < (sx 8 (d.obj 0x9031 0) - 3) * 16) then d.setThrottle (d.hl.throttle.toNat - 1) else d
  | none => d

/-- THERMAL_TRIP: the second reading confirms the first. DEDUCED, log entry 137. -/
def thermalTrip (d : Dev) : Dev :=
  match d.hl.hot with
  | some s => if d.mayFault then d.enterSafe 5 s else d
  | none => d

/-! Watchdog (R528, R529). -/

/-- A write of 0x2040 by the side-band master (`sb`) or the main host. -/
def watchdogWrite (d : Dev) (sb : Bool) (v : Nat) : WRes :=
  let t := fld v 15 0
  let p := fld v 29 16
  need (!bitN v 31 || (decide (10 ≤ t) && decide (t ≤ 60000) && (p == 0 || decide (p < t)))) .range <|
  need (bitN v 31 || !d.hl.wdCfg.getLsbD 31 || sb) .denied <|
  .ok (d.setHl (fun h => { h with wdCfg := BitVec.ofNat 32 v })).wdRestart

/-- A write of 0x2041. -/
def watchdogKick (d : Dev) (v : Nat) : WRes := need (v == 0xA5C3) .range <| .ok d.wdRestart

/-- WATCHDOG_PRETIMEOUT: the remaining time has reached PRE. -/
def watchdogWarn (d : Dev) : Dev :=
  let p := fld d.hl.wdCfg.toNat 29 16
  if d.hl.wdRun && !d.wdFrozen && p != 0 && !d.hl.wdWarned && decide (d.hl.wdLeft ≤ p * 4000) then
    (d.setHl (fun h => { h with wdWarned := true })).occur 0x63B
  else d

/-- RST_REQ_N is driven low, unless a request already drives it (R530). DEDUCED, log entry 133. -/
def driveRst (d : Dev) (why : BitVec 2) : Dev :=
  if d.hl.rstReq != 0 then d
  else (d.setHl (fun h => { h with rstReq := why, rstOpen := why })).emit (.rstReq true)

/-- WATCHDOG_EXPIRY: no time remains. -/
def watchdogExpire (d : Dev) : Dev :=
  if d.hl.wdRun && !d.wdFrozen && d.hl.wdLeft == 0 then
    (d.setHl (fun h => { h with wdRun := false, wdWarned := false,
                                wdExpiries := BitVec.ofNat 32 (satAdd (2 ^ 32 - 1) h.wdExpiries.toNat 1) })).driveRst 1
  else d

/-! RST_REQ_N (R530). -/

/-- A write of 0x2030. DEDUCED, log entry 133. -/
def resetRequest (d : Dev) (v : Nat) : WRes := need (v == 1) .range <| .ok (d.driveRst 2)

/-- RST_REQ_PULSE_END. DEDUCED, log entry 133. -/
def rstPulseEnd (d : Dev) : Dev :=
  if d.hl.rstReq = 0 then d else (d.setHl (fun h => { h with rstReq := 0 })).emit (.rstReq false)

/-- RST_REQ_UNANSWERED. DEDUCED, log entry 133. -/
def rstUnanswered (d : Dev) : Dev :=
  if d.hl.rstOpen = 0 then d
  else d.setHl (fun h => { h with rstOpen := 0, unanswered := BitVec.ofNat 32 (satAdd (2 ^ 32 - 1) h.unanswered.toNat 1) })

end Dev
end Sys2Proof.Machine
end

