-- ==== Sys2Proof/Machine/Reset.lean ====
section
/-! DEFINITION. Resets, straps, start-up and self-test (R302, R530-R545, R578, R581, R582). -/

namespace Sys2Proof.Machine

/-- The order in which start-up powers the domains (R535). DEDUCED, log entry 136. -/
def startOrder : List Nat :=
  70 :: (List.range' 49 4 ++ List.range' 53 8 ++ List.range' 1 48 ++ List.range' 71 4 ++ List.range' 61 8 ++ [69])

/-- Domains that a logic self-test group powers (R542), with PD70, which each of them needs (R38).
DEDUCED, log entry 134. -/
def groupDomains (g : Nat) : List Nat :=
  70 :: match g with
  | 0 => [75]
  | 5 => List.range' 53 8
  | 6 => List.range' 71 4
  | 7 => List.range' 61 9
  | _ => (48 + g) :: List.range' (12 * (g - 1) + 1) 12

/-- TAP instructions that take control of the balls (R548). -/
def ballControl (ir : Nat) : Bool := [0x00, 0x03, 0x04, 0x05, 0x06].contains ir

namespace Dev

/-! Warm reset (R532, R533, R540, R578). -/

/-- The configuration object that ball `b` keeps through a warm reset; `none` where it takes the POR
state. DEDUCED, log entry 152. -/
def heldBall (d : Dev) (b : Nat) : Option W16 :=
  match d.gpioOut b with
  | none => none
  | some v =>
    let c := d.gpioCfg b
    if bitN (d.obj 0xA010 0) b then none
    else some (BitVec.ofNat 16 (if fld c 11 10 = 0 then c else putFld (putFld (putFld c 11 10 0) 4 4 (b2n v)) 3 3 1))

/-- Objects that a warm reset leaves (R533). DEDUCED, log entry 131. -/
def keepsObj (d : Dev) (i s : Nat) : Bool :=
  (s == 0 && [0x2040, 0x2060, 0x9002, 0xA010].contains i) ||
  (i == 0x1050 && [1, 2, 5].contains s) ||
  ((i == 0x1040 || i == 0x1041) && s != 0 && d.role (s - 1) == 3) ||
  ((i == 0xA000 || i == 0xA100) && s != 0 && (d.heldBall (s - 1)).isSome)

/-- The device as a warm reset leaves it, held in HELD. DEDUCED, log entry 131. -/
def warmReset (d : Dev) : Dev :=
  let h := d.hl
  let keep {α : Type} (m : SMap α) : SMap α := m.filter (fun p => d.keepsObj (p.1 / 256) (p.1 % 256))
  let keys {α : Type} (m : SMap α) : SMap α := m.filter (fun p => d.role p.1 == 3)
  let balls := (List.range 32).filterMap (fun b => (d.heldBall b).map (fun c => (b, c)))
  { fc := d.fc, freeCtr := d.freeCtr, out := d.out,
    objs := keep d.objs, octs := keep d.octs,
    pcie := { nextTag := d.pcie.nextTag },
    dict := { vers := keep d.dict.vers, rclaims := keep d.dict.rclaims, keys := keys d.dict.keys, roles := keys d.dict.roles,
              rxCtr := keys d.dict.rxCtr, txCtr := keys d.dict.txCtr },
    dbg := { tlr := d.dbg.tlr, ir := d.dbg.ir, repl := d.dbg.repl, data := d.dbg.data, err := d.dbg.err, code := d.dbg.code },
    hl := { dev := .held, resetLow := true, time := h.time, hcPhase := h.hcPhase, xtal := h.xtal, refclk := h.refclk, pcieRef := h.pcieRef,
            boot := h.boot, clksel := h.clksel, lbistEn := h.lbistEn, dbgOff := h.dbgOff, mbId := h.mbId, porSample := h.porSample,
            safeCause := h.safeCause, safeDetail := h.safeDetail, safeTime := h.safeTime, hlRail := h.hlRail, coreRail := h.coreRail,
            temps := h.temps.filter (fun p => p.1 == 17), wdCfg := h.wdCfg, rstReq := h.rstReq,
            resetCause := if h.rstReq = 1 then 3 else if h.rstReq = 2 then 4 else 2,
            warmResets := BitVec.ofNat 32 (satAdd (2 ^ 32 - 1) h.warmResets.toNat 1), wdExpiries := h.wdExpiries,
            unanswered := h.unanswered, lbistNext := h.lbistNext, fixGran := h.fixGran, fixLoam := h.fixLoam,
            gpio := balls, gpHeld := BitVec.ofNat 32 ((balls.map (fun p => 2 ^ p.1)).sum) } }

/-- RESET_N_ASSERT: RESET_N goes low for `ns` (R531, R532, R534). DESIGN CHOICE, log entry 140. -/
def resetAssert (d : Dev) (ns : Nat) : Dev :=
  let (d, sees) := if ns < 100 then (d, false) else if 500 ≤ ns then (d, true) else
    let (d, v) := d.free
    (d, bitN v 0)
  if !sees || d.hl.resetLow then d
  else if d.hl.por then d.setHl (fun h => { h with resetLow := true })
  else d.warmReset

/-- RESET_N_RELEASE (R531, R534): start-up begins. DEDUCED, log entry 143. -/
def resetRelease (d : Dev) : Dev :=
  if !d.hl.resetLow then d
  else
    let d := d.setHl (fun h => { h with resetLow := false })
    let d := if ballControl d.dbg.ir.toNat then { d with dbg := { d.dbg with ir := 0xFF } } else d
    if d.hl.por || d.hl.dev != .held then d
    else
      let d := d.setHl (fun h => { h with dev := .cold, stage := .straps, stStart := h.time.toNat })
      { d with dict := { d.dict with beatAt := d.hl.time.toNat } }

/-! Cold reset (R534, R581). -/

/-- POR_ASSERT: every sequence stops and nothing but the inputs of the Headland is left. -/
def porAssert (d : Dev) : Dev :=
  let d := d.rstPulseEnd
  let h := d.hl
  { fc := d.fc, freeCtr := d.freeCtr, out := d.out,
    hl := { por := true, resetLow := h.resetLow, xtal := h.xtal, refclk := h.refclk, pcieRef := h.pcieRef, hlRail := false,
            coreRail := false } }

/-- POR_RELEASE. -/
def porRelease (d : Dev) : Dev :=
  if d.hl.por then d.setHl (fun h => { h with por := false, hlRail := true, time := 0, dev := if h.resetLow then .held else .cold })
  else d

/-! Straps (R536, R537). -/

/-- STRAP_SAMPLE. DEDUCED, log entry 141. -/
def strapSample (d : Dev) (boot clksel : BitVec 2) (lbist dbgOff : Bool) (mbId : BitVec 5) : Dev :=
  let h := d.hl
  let cold := h.dev == .cold && h.stage == .straps
  if h.por || !(cold || (h.dev == .held && h.porSample)) then d
  else
    let d := d.setHl (fun h => { h with
      boot := boot, clksel := clksel, lbistEn := lbist, dbgOff := dbgOff
      mbId := if h.porSample then mbId else h.mbId
      porSample := false
      lbistRun := lbist || h.lbistNext
      stage := if cold then .rails else h.stage })
    { d with dict := { d.dict with owner := boot == 2 } }

/-! Start-up (R535, R541-R545, R582). -/

/-- Start-up powers domains and releases their resets in order. DEDUCED, log entry 136. -/
def startPower (d : Dev) (ks : List Nat) : Dev :=
  ks.foldl (fun d k => ((d.setDom k { d.dom k with st := .on, railOk := true }).domCold k).domEvent k) d

/-- Self-test ends: its duration. -/
def testOver (d : Dev) (state stage : Nat) : Dev :=
  d.setHl (fun h => { h with stState := BitVec.ofNat 8 state, stStage := BitVec.ofNat 8 stage,
                             stDur := BitVec.ofNat 16 ((h.time.toNat - h.stStart) / 4000) })

/-- A test has failed (R542, R543). -/
def testFail (d : Dev) (stage detail : Nat) : Dev := (d.testOver 3 stage).enterSafe stage detail

/-- The memory self-test and the loopback begin. DEDUCED, log entry 135. -/
def memoryStage (d : Dev) : Dev :=
  (d.setHl (fun h => { h with stage := .memory, stState := 1, stStage := 2 })).startPower startOrder

/-- STARTUP_RAIL_CHECK (R582): a check finds every rail in range. DESIGN CHOICE, log entry 132. -/
def railCheck (d : Dev) : Dev :=
  if d.hl.dev == .cold && !d.hl.por && d.hl.stage == .rails then 
    d.setHl (fun h => { h with hlRail := true, coreRail := true, stage := .temp })
  else d

/-- STARTUP_TEMP_CHECK (R527): the Headland sensor, as last sampled, reads no more than 100 °C.
DEDUCED, log entry 137. -/
def tempCheck (d : Dev) : Dev :=
  if d.hl.dev == .cold && !d.hl.por && d.hl.stage == .temp then
    let r := d.reading 17
    if r = 0x8000 ∨ 1600 < sx 16 r then d
    else if d.hl.lbistRun then
      (d.setHl (fun h => { h with stage := .logic, stState := 1, stStage := 1, lbistNext := false })).startPower (groupDomains 0)
    else d.memoryStage
  else d

/-- LOGIC_SELF_TEST_GROUP (R542): the next group ends, its signature right or not. DEDUCED, log entry 134. -/
def logicGroup (d : Dev) (pass : Bool) : Dev :=
  let g := d.hl.groupsRun
  if d.hl.dev == .cold && d.hl.stage == .logic then
    let d := (d.allOff id).setHl (fun h => { h with
      groups := if pass then h.groups ||| BitVec.ofNat 8 (2 ^ g) else h.groups, groupsRun := g + 1 })
    if g < 7 then d.startPower (groupDomains (g + 1))
    else if d.hl.groups = 0xFF then d.memoryStage
    else d.testFail 1 (255 - d.hl.groups.toNat)
  else d

/-- Spare columns in use of bank `b` of slice `n`, fused and soft, and of the slice (R302, 0x6020). DEDUCED, log entry
135. -/
def granBank (d : Dev) (n b : Nat) : Nat := (Config.fuse (16 * n + b)).toNat % 5 + (d.hl.fixGran.get 0 (16 * n + b)).toNat
def granSpares (d : Dev) (n : Nat) : Nat := (List.range 16).foldl (fun a b => a + d.granBank n b) 0
/-- Spare rows in use of bank `b` of stack `k`, and of the stack (R302, 0x6021). DEDUCED, log entry 135. -/
def loamBank (d : Dev) (k b : Nat) : Nat := (d.hl.fixLoam.get 0 (256 * k + b)).toNat
def loamSpares (d : Dev) (k : Nat) : Nat := (d.hl.fixLoam.filter (fun p => p.1 / 256 == k)).foldl (fun a p => a + p.2.toNat) 0

/-- Spares assigned to banks from `base` on, by bank. -/
def addSpares (m : SMap W8) (base : Nat) (ss : List (Nat × Nat)) : SMap W8 :=
  ss.foldl (fun m p => m.set 0 (base + p.1) (BitVec.ofNat 8 ((m.get 0 (base + p.1)).toNat + p.2))) m

/-- MEMORY_SELF_TEST (R302, R543): the test of the memory that the detail code `unit` names ends, having assigned
`spares` of its banks; `ok` is false where the memory still fails. A bank that needs more than its 4 fails the test.
DEDUCED, log entry 135. -/
def memoryTest (d : Dev) (unit : Nat) (spares : List (Nat × Nat)) (ok : Bool) : Dev :=
  if d.hl.dev == .cold && d.hl.stage == .memory then
    let n := unit % 256
    if !ok then d.testFail 2 unit
    else if unit / 256 = 0 ∧ n < 96 then
      let ss := spares.filter (fun p => decide (p.1 < 16))
      let e := d.setHl (fun h => { h with fixGran := addSpares h.fixGran (16 * n) ss })
      if (List.range 16).all (fun b => decide (d.granBank n b + (ss.filter (fun p => p.1 == b)).foldl (fun a p => a + p.2) 0 ≤ 4)) then e
      else d.testFail 2 unit
    else if unit / 256 = 3 ∧ n < 8 then
      let e := d.setHl (fun h => { h with fixLoam := addSpares h.fixLoam (256 * n) spares })
      if spares.all (fun q => decide (d.loamBank n q.1 + (spares.filter (fun p => p.1 == q.1)).foldl (fun a p => a + p.2) 0 ≤ 4)) then e
      else d.testFail 2 unit
    else d
  else d

/-- LANE_LOOPBACK (R544): bit n of `failed` is lane SLn. -/
def laneLoopback (d : Dev) (failed : W32) : Dev :=
  if d.hl.dev == .cold && d.hl.stage == .memory && d.hl.lbistRun && !d.hl.loopDone then
    d.setHl (fun h => { h with lanesFailed := failed, loopDone := true })
  else d

/-- STARTUP_END (R514, R545): every domain is switched off; FALLOW, and with a boot source READY once the
boot path is ON. DEDUCED, log entry 125. -/
def startupEnd (d : Dev) : Dev :=
  if d.hl.dev == .cold && d.hl.stage == .memory && (!d.hl.lbistRun || d.hl.loopDone) then
    let d := ((d.allOff id).testOver 2 0).setHl (fun h => { h with stage := .done })
    let d := d.enterFallow
    if d.hl.boot = 3 then d
    else ((d.setHl (fun h => { h with leaving := true })).powerUp (bootPath d.hl.boot)).settlePower
  else d

end Dev
end Sys2Proof.Machine
end

