-- ==== Sys2Proof/Machine/Debug.lean ====
section
/-! DEFINITION. Debug and run control: the TAP, the debug access register, the debug space, stepping,
feeding, freezes and the debug lock (R546-R568). -/

namespace Sys2Proof.Machine

/-- IDCODE (R549). DEDUCED, log entry 143. -/
def idcode : Nat := Config.stepping.toNat * 2 ^ 28 + 0x0F96 * 2 ^ 12 + 0x35B * 2 + 1

namespace Dev

def setDbg (d : Dev) (f : Dbg → Dbg) : Dev := { d with dbg := f d.dbg }
def modTd (d : Dev) (t k : Nat) (f : ThreadDbg → ThreadDbg) : Dev := d.modThread t k (fun x => { x with dbg := f x.dbg })

/-! The TAP (R546-R548, R564). -/

/-- TAP_RESET. DEDUCED, log entry 143. -/
def tapReset (d : Dev) : Dev := d.setDbg (fun g => { g with tlr := true, ir := 0x02, repl := false })

/-- TAP_IR_UPDATE (R548). DEDUCED, log entry 143. -/
def tapIr (d : Dev) (ir : W8) : Dev :=
  if d.hl.por || d.dbg.tlr then d
  else if ballControl ir.toNat && d.hl.dev != .held then d.setDbg (fun g => { g with ir := 0xFF, repl := true })
  else d.setDbg (fun g => { g with ir := ir, repl := false })

/-- TAP_LEAVES_TEST_LOGIC_RESET. -/
def tapLeaves (d : Dev) : Dev :=
  if d.hl.por || !d.dbg.tlr then d
  else
    let d := d.setDbg (fun g => { g with tlr := false })
    if d.debugClosed then d else d.setHl (fun h => { h with wdCfg := h.wdCfg ||| 0x40000000 })

/-- 0x9011 (R552). -/
def debugStatus (d : Dev) : Nat :=
  b2n (!d.dbg.tlr) + b2n (d.threads.any (fun p => p.2.halted)) * 2 + b2n d.inForce * 4 + b2n d.debugClosed * 8

/-! Run control (R555-R560, R565). -/

/-- HALT of thread `k`. -/
def tdHalt (d : Dev) (t k : Nat) : Dev := if d.tillerOn t then d.haltCause t k 1 else d

/-- RESUME of thread `k` (R560): a stop that arrived during the halt is applied instead.
DEDUCED, log entries 144 and 145. -/
def tdResume (d : Dev) (t k : Nat) : Dev :=
  let x := d.thread t k
  if x.st != .halted then d
  else if x.dbg.stopReq then d.stopAt t k x.pc false
  else d.setThread t k { x with st := .ready, dbg := { x.dbg with why := 0, haltReq := 0, passBp := true } }

/-- The thread issues the words from its pc up to the end of an EXT group. -/
def issueGroup (d : Dev) (t k : Nat) : Nat → Dev
  | 0 => d
  | n + 1 =>
    let d := match decodeSeq ((d.wordAt t k (d.thread t k).pc).setWidth 14) with
      | some op => d.seqStep t k op
      | none => d.issue t k true (fun d _ => d.illegal t k)
    let x := d.thread t k
    if x.st == .ready && !x.ext.isEmpty then d.issueGroup t k n else d

/-- STEP of thread `k` (R557). DEDUCED, log entries 144 and 145. -/
def tdStep (d : Dev) (t k : Nat) : Dev :=
  let x := d.thread t k
  if x.st != .halted || !d.tillerOn t then d
  else
    let d := d.setThread t k { x with st := .ready, dbg := { x.dbg with why := 0, haltReq := 2, passBp := true } }
    match (if (d.tiller t).smask then none else d.deliverable t k) with
    | some ev => d.takeEvent t k ev
    | none => d.issueGroup t k 5

/-- A fed word records ILLEGAL (R559). -/
def feedIllegal (d : Dev) (t k : Nat) : Dev := d.modTd t k (fun g => { g with exc := true, vector := 0, info := 0, fext := [] })

/-- TD_FEED with GO = 1 (R559); `none` where the thread may not be fed. -/
def tdFeed (d : Dev) (t k : Nat) (w : BitVec 14) : Option Dev :=
  let x := d.thread t k
  if x.st != .halted then none
  else
    let d := d.modTd t k (fun g => { g with exc := false, vector := 0, info := 0 })
    some (match decodeSeq w with
      | none => d.feedIllegal t k
      | some (.ext i) =>
        if 3 ≤ x.dbg.fext.length then d.feedIllegal t k else d.modTd t k (fun g => { g with fext := g.fext ++ [i] })
      | some op =>
        if op.noFeed || (!x.dbg.fext.isEmpty && !op.takesExt) then d.feedIllegal t k
        else
          let d := d.modThread t k (fun y => { y with
            st := .ready, ipc := y.pc, dbg := { y.dbg with busy := true, keepPc := y.pc, fext := [] } })
          let d := (d.runOp t k x.dbg.fext op).ldxIssue t k
          let y := d.thread t k
          if y.dbg.busy && y.st == .ready then d.resume t k else d)

/-- BREAKPOINT_HIT. DEDUCED, log entry 145. -/
def breakpointHit (d : Dev) (t k : Nat) : Dev :=
  let x := d.thread t k
  if d.tillerOn t && x.st == .ready && d.bpHit t k x.pc && !x.dbg.passBp then d.haltCause t k 3 else d

/-- CROSS_TRIGGER (R565). -/
def crossTrigger (d : Dev) : Dev :=
  if d.dbg.trig = 0 then d
  else
    let d := d.setDbg (fun g => { g with trig := g.trig - 1 })
    ((List.range 96).filter (fun t => tillerBit d.dbg.dxIn0 d.dbg.dxIn1 t && d.tillerOn t)).foldl
      (fun d t => (List.range 4).foldl (fun d k => d.haltCause t k 4) d) d

/-- DEBUG_LOCK (R552): every halted thread resumes, or stops where a stop arrived during its halt (R169), no halt
stays due, and FORCE and every freeze bit clear. DEDUCED, log entry 147. -/
def debugLock (d : Dev) : Dev :=
  let d := d.setObj 0x9010 0 1
  let d := (d.threads.map Prod.fst).foldl (fun d i =>
    let x := d.thread (i / 4) (i % 4)
    if x.dbg.busy then
      let stop := x.dbg.stopReq
      let d := d.setThread (i / 4) (i % 4) { x with
        pc := x.dbg.keepPc, dbg := { x.dbg with busy := false, why := 0, haltReq := 0, stopReq := false } }
      if stop then d.tcStop (i / 4) (i % 4) else d
    else if x.st == .halted then d.tdResume (i / 4) (i % 4)
    else d.setThread (i / 4) (i % 4) { x with dbg := { x.dbg with haltReq := 0 } }) d
  d.setDbg (fun g => { g with force := false, blk := 0, pipe0 := 0, pipe1 := 0 })

/-! The debug space (R553, R554, R558, R562, R566). -/

/-- A write of special register `s` from the register window: the access code does not apply (R558).
DEDUCED, log entry 146. -/
def windowSet (d : Dev) (t k s : Nat) (v : W32) : Dev :=
  let x := d.thread t k
  match s with
  | 0 => d.setThread t k { x.loadStatus v with fb := v.getLsbD 14 }
  | 3 => d.setThread t k { x with ecause := v }
  | 4 => d.setThread t k { x with evaLo := v }
  | 5 => d.setThread t k { x with evaHi := v &&& 0xFFFF }
  | 6 => d.setThread t k { x with epriv := v &&& 0xFFFFF }
  | 12 => d.setThread t k { x with seedctl := v }
  | 13 => d.setThread t k { x with seedfc := v }
  | 16 =>
    d.modTiller t (fun y => { y with cycAdd := (y.cycAdd + v.toNat + 2 ^ 64 - d.cyc t % 2 ^ 32) % 2 ^ 64 })
  | 17 => d.setThread t k { x with cycHi := v }
  | 20 => d.setThread t k { x with fecause := v }
  | 21 => d.setThread t k { x with fepriv := v &&& 1 }
  | 25 => d.setThread t k { x with sdone := v.extractLsb' 24 8, sfault := v.extractLsb' 16 8, asp := v.getLsbD 11 }
  | _ => d.setThread t k (sWrite x s v)

/-- TD_STAT. -/
def tdStat (d : Dev) (t : Nat) : Nat :=
  (List.range 4).foldl (fun a k =>
    let g := (d.thread t k).dbg
    a + b2n g.brk * 2 ^ (16 + k) + g.why.toNat * 16 ^ k) 0

/-- TD_FEEDST. -/
def feedStat (g : ThreadDbg) : Nat := b2n g.busy * 2 ^ 31 + b2n g.exc * 2 ^ 30 + g.vector.toNat * 2 ^ 16 + g.info.toNat

/-- Registers of a tiller block, by offset. -/
inductive TdReg where
  | ctrl | stat | bp (i : Bool) | ttCtrl | ttPtr | feed (k : Nat) | feedSt (k : Nat) | pc (k : Nat)
  | g (k r : Nat) | f (k r : Nat) | s (k r : Nat) | trace (i : Nat)
  deriving DecidableEq, Repr

/-- The register at offset `o` of a tiller block. -/
def tdReg (o : Nat) : Option TdReg :=
  let k := fld o 11 10
  let r := fld o 7 3
  if o % 8 ≠ 0 then none
  else if 0x2000 ≤ o ∧ o < 0x3000 then some (.trace ((o - 0x2000) / 4))
  else if 0x1000 ≤ o ∧ o < 0x2000 then
    match fld o 9 8 with
    | 0 => some (.g k r)
    | 1 => if r < 8 then some (.f k r) else none
    | 2 => some (.s k r)
    | _ => none
  else if 0x100 ≤ o ∧ o < 0x200 then
    match o % 0x40 with
    | 0x00 => some (.feed ((o - 0x100) / 0x40))
    | 0x08 => some (.feedSt ((o - 0x100) / 0x40))
    | 0x10 => some (.pc ((o - 0x100) / 0x40))
    | _ => none
  else match o with
    | 0x00 => some .ctrl | 0x08 => some .stat | 0x10 => some (.bp false) | 0x18 => some (.bp true)
    | 0x20 => some .ttCtrl | 0x28 => some .ttPtr | _ => none

/-- A read in a tiller block: its value, or the code it captures. DEDUCED, log entry 144. -/
def tdRead (d : Dev) (t : Nat) (r : TdReg) : Except Nat Nat :=
  let y := d.tiller t
  let win (k : Nat) (v : Nat) : Except Nat Nat := if (d.thread t k).halted then .ok v else .error 0x40
  match r with
  | .ctrl => .ok (b2n y.smask * 2 ^ 20 + y.hos.toNat * 2 ^ 16)
  | .stat => .ok (d.tdStat t)
  | .bp i => .ok (if i then y.bp1 else y.bp0).toNat
  | .ttCtrl => .ok y.ttctl.toNat
  | .ttPtr => .ok y.ttptr.toNat
  | .feed _ => .ok 0
  | .feedSt k => .ok (feedStat (d.thread t k).dbg)
  | .pc k => .ok (d.thread t k).dbg.tdPc.toNat
  | .g k r => win k (if r = 0 then 0 else ((d.thread t k).g.get 0 r).toNat)
  | .f k r => win k ((d.thread t k).f.get 0 r).toNat
  | .s k r => win k (d.sRead t k r).toNat
  | .trace i => .ok ((y.trace.get 0 i).toNat + (y.trace.get 0 (i + 1)).toNat * 2 ^ 32)

/-- TD_CTRL (R554, R555): a HALT and a RESUME of one thread in the same write are ignored together. -/
def tdCtrl (d : Dev) (t v : Nat) : Dev :=
  let d := d.modTiller t (fun y => { y with smask := bitN v 20, hos := BitVec.ofNat 4 (fld v 19 16) })
  (List.range 4).foldl (fun d k =>
    let h := bitN v k
    let r := bitN v (4 + k)
    let d := if h && !r then d.tdHalt t k else if r && !h then d.tdResume t k else d
    if bitN v (8 + k) then d.tdStep t k else d) d

/-- A write in a tiller block. DEDUCED, log entry 144. -/
def tdWrite (d : Dev) (t : Nat) (r : TdReg) (v : Nat) : Except Nat Dev :=
  let y := d.tiller t
  let win (k : Nat) (e : Dev) : Except Nat Dev := if (d.thread t k).halted then .ok e else .error 0x40
  match r with
  | .ctrl => .ok (d.tdCtrl t v)
  | .stat | .feedSt _ => .ok d
  | .bp i =>
    let b := BitVec.ofNat 32 v &&& 0x800F3FFF
    .ok (d.setTiller t (if i then { y with bp1 := b } else { y with bp0 := b }))
  | .ttCtrl => .ok (d.setTiller t { y with ttctl := BitVec.ofNat 32 v &&& 0x3F })
  | .ttPtr =>
    if (List.range 4).any (fun k => y.ttctl.getLsbD k && !(d.thread t k).halted) then .error 0x40
    else .ok (d.setTiller t { y with ttptr := BitVec.ofNat 16 (v % 2 ^ 11) })
  | .feed k =>
    if !bitN v 16 then .ok d
    else match d.tdFeed t k (BitVec.ofNat 14 v) with
      | some e => .ok e
      | none => .error 0x40
  | .pc k => win k (d.modThread t k (fun x =>
      if x.dbg.busy then { x with dbg := { x.dbg with tdPc := BitVec.ofNat 14 v, keepPc := BitVec.ofNat 14 v } }
      else { x with pc := BitVec.ofNat 14 v, dbg := { x.dbg with tdPc := BitVec.ofNat 14 v } }))
  | .g k r => win k (if r = 0 then d else d.modThread t k (fun x => { x with g := x.g.put r (BitVec.ofNat 32 v) }))
  | .f k r => win k (d.modThread t k (fun x => { x with f := x.f.put r (BitVec.ofNat 32 v) }))
  | .s k r => win k (d.windowSet t k r (BitVec.ofNat 32 v))
  | .trace i => .ok (d.setTiller t { y with trace := (y.trace.put i (BitVec.ofNat 32 v)).put (i + 1) (BitVec.ofNat 32 (v / 2 ^ 32)) })

/-- Offsets of the global block. -/
def dfReg (o : Nat) : Bool := [0x00, 0x08, 0x10, 0x18, 0x20, 0x28, 0x30, 0x38].contains o

def dfRead (d : Dev) (o : Nat) : Nat :=
  match o with
  | 0x00 => b2n d.inForce * 2 + b2n d.dbg.force
  | 0x08 => d.dbg.blk.toNat
  | 0x10 => d.dbg.pipe0.toNat | 0x18 => d.dbg.pipe1.toNat
  | 0x20 => d.dbg.dxOut0.toNat | 0x28 => d.dbg.dxOut1.toNat
  | 0x30 => d.dbg.dxIn0.toNat | _ => d.dbg.dxIn1.toNat

def dfWrite (d : Dev) (o v : Nat) : Dev :=
  let w := BitVec.ofNat 64 v
  let h := BitVec.ofNat 64 (v % 2 ^ 32)
  d.setDbg (fun g => match o with
    | 0x00 => { g with force := bitN v 0 }
    | 0x08 => { g with blk := BitVec.ofNat 64 (v % 2 ^ 52) }
    | 0x10 => { g with pipe0 := w } | 0x18 => { g with pipe1 := h }
    | 0x20 => { g with dxOut0 := w } | 0x28 => { g with dxOut1 := h }
    | 0x30 => { g with dxIn0 := w } | _ => { g with dxIn1 := h })

/-- A read of the debug space (R550, R553). DEDUCED, log entry 142. -/
def spaceRead (d : Dev) (a : Nat) : Except Nat Nat :=
  if 0x20_0000 ≤ a then if dfReg (a - 0x20_0000) then .ok (d.dfRead (a - 0x20_0000)) else .error 0x41
  else match (if a / 0x4000 < 96 then tdReg (a % 0x4000) else none) with
    | none => .error 0x41
    | some r => if d.tillerOn (a / 0x4000) then d.tdRead (a / 0x4000) r else .error 0x22

/-- A write of the debug space. DEDUCED, log entry 142. -/
def spaceWrite (d : Dev) (a v : Nat) : Except Nat Dev :=
  if 0x20_0000 ≤ a then if dfReg (a - 0x20_0000) then .ok (d.dfWrite (a - 0x20_0000) v) else .error 0x41
  else match (if a / 0x4000 < 96 then tdReg (a % 0x4000) else none) with
    | none => .error 0x41
    | some r => if d.tillerOn (a / 0x4000) then d.tdWrite (a / 0x4000) r v else .error 0x22

/-! DBG_ACC (R550-R552). -/

/-- The debug access register is selected and debug is open. -/
def dbgSelected (d : Dev) : Bool := !d.hl.por && !d.dbg.tlr && d.dbg.ir == 0x10 && !d.debugClosed

/-- The state that DBG_ACC captures after an operation. -/
def dbgEnd (d : Dev) (r : Except Nat Nat) : Dev :=
  match r with
  | .ok v => d.setDbg (fun g => { g with err := false, code := 0, data := BitVec.ofNat 64 v })
  | .error c => d.setDbg (fun g => { g with err := true, code := BitVec.ofNat 8 c, data := 0 })

/-- A physical read as a peek: nothing but the supply of free values moves (R551). -/
def physPeek (d : Dev) (a n : Nat) : Dev × Except Nat Nat :=
  if 2 ^ 36 ≤ a then (d, .error 0x21)
  else
    let (e, r) := d.busRead .debug 0 a n
    ({ d with freeCtr := e.freeCtr }, match r with
      | .ok bs => .ok (ofLE bs)
      | .error x => .error x.code)

/-- DBG_ACC_READ; a read of XI_SYNC is made once it may return (R329). DEDUCED, log entries 54, 79 and 142. -/
def dbgAccRead (d : Dev) (space : Bool) (wide : Bool) (a : Nat) : Dev :=
  if !d.dbgSelected then d
  else if space then d.dbgEnd (d.spaceRead a)
  else if isXiSyncPa a && d.syncing (Orig.copy .debug) then d
  else
    let (d, r) := d.physPeek a (if wide then 8 else 4)
    d.dbgEnd r

/-- DBG_ACC_WRITE. DEDUCED, log entry 142. -/
def dbgAccWrite (d : Dev) (space : Bool) (wide : Bool) (a v : Nat) : Dev :=
  let keep := d.dbg.data.toNat
  if !d.dbgSelected then d
  else if space then
    match d.spaceWrite a v with
    | .ok e => e.dbgEnd (.ok keep)
    | .error c => d.setDbg (fun g => { g with err := true, code := BitVec.ofNat 8 c })
  else if 2 ^ 36 ≤ a then d.setDbg (fun g => { g with err := true, code := 0x21 })
  else
    match d.busWrite .debug a (toLE (if wide then 8 else 4) v) with
    | (e, .ok _) => e.dbgEnd (.ok keep)
    | (e, .error x) => e.setDbg (fun g => { g with err := true, code := BitVec.ofNat 8 x.code })

/-- TD_CTRL of tiller `t` with one command bit more. -/
def tdCommand (d : Dev) (t bit : Nat) : Dev :=
  let y := d.tiller t
  d.dbgAccWrite true true (t * 0x4000) (b2n y.smask * 2 ^ 20 + y.hos.toNat * 2 ^ 16 + 2 ^ bit)

end Dev
end Sys2Proof.Machine
end

