-- ==== Sys2Proof/Machine/ObjTab.lean ====
section
/-! DEFINITION. The object map of the Pelz dictionary: types, access classes and subentries (R17, R18,
R473, R478 and the tables of each chapter). -/

namespace Sys2Proof.Machine

/-- Types of dictionary values (R473). -/
inductive OTy where
  | bool
  /-- an integer of `n` bytes, signed or not -/
  | int (n : Nat)
  | octets (n : Nat)
  | str (max : Nat)
  | domain (max : Nat)
  deriving DecidableEq, Repr

/-- Access classes (R18). -/
inductive Acc where
  | ro | rw | wo | rwh | rws
  deriving DecidableEq, Repr

def u8 : OTy := .int 1
def u16 : OTy := .int 2
def u32 : OTy := .int 4
def u64 : OTy := .int 8

/-- Objects without subentries. -/
def plainObj (i : Nat) : Option (OTy × Acc) :=
  match i with
  | 0x1010 => some (u32, .rwh) | 0x1011 => some (u16, .rwh) | 0x1012 => some (u8, .ro) | 0x1013 => some (u8, .rws)
  | 0x1030 => some (u16, .rwh) | 0x1031 => some (u16, .rwh) | 0x1032 => some (u8, .rwh)
  | 0x2000 => some (u8, .ro) | 0x2001 => some (u8, .rw) | 0x2002 => some (u8, .rw) | 0x2003 => some (u8, .ro)
  | 0x2004 => some (u32, .rw) | 0x2020 => some (u64, .ro) | 0x2021 => some (u8, .ro)
  | 0x2030 => some (u8, .wo) | 0x2031 => some (u8, .ro)
  | 0x2040 => some (u32, .rw) | 0x2041 => some (u32, .wo) | 0x2042 => some (u32, .ro) | 0x2060 => some (u8, .rws)
  | 0x7020 => some (.octets 16, .ro)
  | 0x9002 => some (.bool, .rw) | 0x9003 => some (u32, .ro) | 0x9010 => some (u8, .rw) | 0x9011 => some (u8, .ro)
  | 0x9031 => some (u8, .rwh) | 0x9032 => some (u8, .ro) | 0x9033 => some (.bool, .rwh)
  | 0xA001 => some (u32, .ro) | 0xA002 => some (u32, .ro) | 0xA010 => some (u32, .rwh)
  | _ => none

/-- Number of subentries of an object that has them. -/
def subCount (i : Nat) : Option Nat :=
  if 0x1060 ≤ i ∧ i ≤ 0x106F then some 0x44
  else if 0x1070 ≤ i ∧ i ≤ 0x107F then some 0x24
  else if 0x2010 ≤ i ∧ i ≤ 0x2013 then some 0x4C
  else if 0x3110 ≤ i ∧ i ≤ 0x3114 then some 8
  else if 0x3400 ≤ i ∧ i ≤ 0x3406 then some 0x10
  else if 0x4210 ≤ i ∧ i ≤ 0x4215 then some 0x60
  else if 0x5100 ≤ i ∧ i ≤ 0x5107 then some 0x40
  else if 0x6110 ≤ i ∧ i ≤ 0x6113 then some 0x10
  else if 0xA110 ≤ i ∧ i ≤ 0xA117 then some 0x20
  else match i with
    | 0x1000 => some 7 | 0x1034 => some 3 | 0x1040 => some 4 | 0x1041 => some 4 | 0x1050 => some 5
    | 0x1100 => some 0x80 | 0x1101 => some 0x80 | 0x1110 => some 1 | 0x1112 => some 1 | 0x1120 => some 3 | 0x1130 => some 8
    | 0x2032 => some 3 | 0x2050 => some 3
    | 0x3010 => some 0x10 | 0x3011 => some 0x10 | 0x3012 => some 0x10 | 0x3013 => some 0x10 | 0x3014 => some 0x10
    | 0x3030 => some 0x10 | 0x3031 => some 0x10 | 0x3032 => some 4 | 0x3040 => some 0x10 | 0x3041 => some 0x10
    | 0x3100 => some 1 | 0x3101 => some 1 | 0x3120 => some 8
    | 0x3300 => some 1 | 0x3301 => some 1 | 0x3310 => some 2 | 0x3320 => some 6
    | 0x4200 => some 0x60 | 0x4201 => some 4 | 0x4202 => some 0x60
    | 0x5000 => some 4 | 0x5001 => some 4 | 0x5108 => some 4 | 0x5109 => some 4
    | 0x6000 => some 4 | 0x6001 => some 4 | 0x6002 => some 8 | 0x6003 => some 8 | 0x6004 => some 4
    | 0x6010 => some 4 | 0x6011 => some 8 | 0x6020 => some 0x60 | 0x6021 => some 8
    | 0x6100 => some 0x60 | 0x6120 => some 4 | 0x6121 => some 4 | 0x6200 => some 4 | 0x7010 => some 2
    | 0x9000 => some 4 | 0x9030 => some 0x11 | 0x9040 => some 2
    | 0xA000 => some 0x20 | 0xA100 => some 0x20 | 0xA101 => some 8 | 0xA102 => some 0x20
    | _ => none

/-- Type and access class of subentry `s` (from 1) of an object with subentries. -/
def subObj (i s : Nat) : OTy × Acc :=
  if 0x1060 ≤ i ∧ i ≤ 0x106F then (.octets 56, .wo)
  else if 0x1070 ≤ i ∧ i ≤ 0x107F then
    if s = 1 then (.octets 8, .rwh)
    else if s = 2 then (u8, .rwh)
    else if s = 3 then (u8, .ro)
    else if s ≤ 0x13 then (.octets 8, .rwh)
    else if s ≤ 0x23 then (u8, .rwh)
    else (u64, .ro)
  else if 0x3110 ≤ i ∧ i ≤ 0x3113 then (u32, .rwh)
  else if 0x4210 ≤ i ∧ i ≤ 0x4215 then (u64, .ro)
  else if 0xA100 ≤ i ∧ i ≤ 0xA117 then (u16, .rw)
  else match i, s with
    | 0x1000, 1 => (.str 16, .ro) | 0x1000, 2 => (.str 16, .ro) | 0x1000, 6 => (u64, .ro) | 0x1000, 7 => (u16, .ro)
    | 0x1000, _ => (u8, .ro)
    | 0x1034, _ => (.octets 64, .ro) | 0x1040, _ => (.octets 32, .wo) | 0x1041, _ => (u8, .rw)
    | 0x1050, 1 => (.octets 6, .rws) | 0x1050, 2 => (.bool, .rws) | 0x1050, 3 => (u8, .ro) | 0x1050, 4 => (.octets 6, .ro)
    | 0x1050, _ => (u8, .rws)
    | 0x1100, _ => (.octets 32, .ro) | 0x1101, _ => (.octets 32, .ro)
    | 0x1110, _ => (.octets 24, .rwh) | 0x1112, _ => (u16, .rwh)
    | 0x1120, 1 => (.octets 32, .ro) | 0x1120, 2 => (u16, .ro) | 0x1120, _ => (u8, .wo) | 0x1130, _ => (.octets 24, .rwh)
    | 0x2010, _ => (u8, .rw) | 0x2011, _ => (u8, .ro) | 0x2012, _ => (u16, .ro) | 0x2013, _ => (u32, .ro)
    | 0x2032, _ => (u32, .ro) | 0x2050, 1 => (u8, .ro) | 0x2050, 2 => (u16, .ro) | 0x2050, _ => (u64, .ro)
    | 0x3010, _ => (u32, .rwh) | 0x3011, _ => (u8, .ro) | 0x3012, _ => (u16, .rwh) | 0x3013, _ => (.octets 48, .ro)
    | 0x3014, _ => (.octets 64, .ro) | 0x3030, _ => (u32, .rwh) | 0x3031, _ => (u32, .rwh) | 0x3032, _ => (u16, .rwh)
    | 0x3040, _ => (.domain 1510, .ro) | 0x3041, _ => (.domain 1024, .ro)
    | 0x3100, _ => (u32, .rwh) | 0x3101, _ => (u32, .ro) | 0x3114, _ => (u16, .rwh) | 0x3120, _ => (u8, .rwh)
    | 0x3300, _ => (u64, .rwh) | 0x3301, _ => (u8, .rwh) | 0x3310, _ => (.octets 10, .ro) | 0x3320, _ => (u64, .ro)
    | 0x3400, _ => (u32, .rwh) | 0x3401, _ => (u8, .ro) | 0x3402, _ => (u32, .rwh) | 0x3403, _ => (u64, .rwh)
    | 0x3404, _ => (u64, .rwh) | 0x3405, _ => (u64, .rwh) | 0x3406, _ => (u64, .ro)
    | 0x4200, _ => (u8, .rwh) | 0x4201, _ => (u8, .rwh) | 0x4202, _ => (u8, .rwh)
    | 0x5000, _ => (u8, .ro) | 0x5001, _ => (u16, .ro) | 0x5100, _ => (u32, .rwh) | 0x5101, _ => (u32, .ro)
    | 0x5102, _ => (u8, .rwh) | 0x5103, _ => (u64, .ro) | 0x5104, _ => (u64, .ro) | 0x5105, _ => (u32, .ro)
    | 0x5106, _ => (u32, .rwh) | 0x5107, _ => (u64, .ro) | 0x5108, _ => (u8, .rwh) | 0x5109, _ => (.octets 16, .ro)
    | 0x6000, _ => (u64, .ro) | 0x6001, _ => (u64, .ro) | 0x6002, _ => (u64, .ro) | 0x6003, _ => (u64, .ro)
    | 0x6004, 1 => (u64, .ro) | 0x6004, 2 => (u16, .ro) | 0x6004, 3 => (u8, .ro) | 0x6004, _ => (.octets 10, .ro)
    | 0x6010, _ => (u16, .rwh) | 0x6011, _ => (u16, .rwh) | 0x6020, _ => (u8, .ro) | 0x6021, _ => (u16, .ro)
    | 0x6100, _ => (u8, .rwh) | 0x6110, _ => (u64, .rwh) | 0x6111, _ => (u64, .ro) | 0x6112, _ => (u16, .ro)
    | 0x6113, _ => (u64, .ro) | 0x6120, _ => (u64, .ro) | 0x6121, _ => (u64, .ro)
    | 0x6200, 1 => (u64, .rw) | 0x6200, 2 => (u8, .rw) | 0x6200, 3 => (u64, .rwh) | 0x6200, _ => (.domain (2 ^ 24), .rwh)
    | 0x7010, _ => (u16, .ro)
    | 0x9000, 4 => (u16, .ro) | 0x9000, _ => (u8, .ro) | 0x9030, _ => (u16, .ro)
    | 0x9040, 1 => (u8, .ro) | 0x9040, _ => (u32, .ro) | 0xA000, _ => (u16, .rw)
    | _, _ => (u8, .ro)

/-- The object at an index and subindex; subindex 0 of an object with subentries holds their number (R17). -/
def objDef (i s : Nat) : Option (OTy × Acc) :=
  match plainObj i with
  | some x => if s = 0 then some x else none
  | none =>
    match subCount i with
    | none => none
    | some n => if s = 0 then some (u8, .ro) else if s ≤ n then some (subObj i s) else none

/-- Whether a value of `n` bytes fits the type. -/
def OTy.fits (t : OTy) (n : Nat) : Bool :=
  match t with
  | .bool => n == 1
  | .int m => n == m
  | .octets m => n == m
  | .str m => decide (n ≤ m)
  | .domain m => decide (n ≤ m)

/-- The zero value of a type. -/
def OTy.zero : OTy → List W8
  | .bool => [0]
  | .int n | .octets n => List.replicate n 0
  | .str _ | .domain _ => []

/-- An object whose write starts an action of its chapter: in a WRITEV only as the last entry (R484).
DEDUCED, log entry 117. -/
def isAction (i s : Nat) : Bool :=
  [0x3100, 0x5100, 0x1110, 0x1013, 0x2001, 0x2030, 0x2041].contains i || (i == 0x1120 && s == 3) || (i == 0x6200 && s == 3)

end Sys2Proof.Machine
end

