-- ==== Sys2Proof/Machine/Output.lean ====
section
/-! DEFINITION. Output furrows: header template, stream frames, IP and UDP fields, chain trailers, PTP
timestamps, the egress choice, and the results of Piste runs (R256, R383, R425-R429). -/

namespace Sys2Proof.Machine

/-- A frame's PTP message by EtherType 0x88F7 or UDP port 319 or 320 (R383): its offset, and whether it
travels over UDP/IPv4 or UDP/IPv6. DEDUCED, log entry 76. -/
def ptpAt (bs : List W8) : Option (Nat × Nat) :=
  let udp (k : Nat) : Option (Nat × Nat) := match frameKey bs k with
    | some (tp, o) => if tp = 319 || tp = 320 then some (o, k) else none
    | none => none
  if (Dev.etherAt bs).1 = 0x88F7 then some ((Dev.etherAt bs).2, 0)
  else match udp 1 with
    | some r => some r
    | none => udp 2

namespace Dev

/-- The egress Almanac time in PTP form: seconds and ns, in network order. -/
def ptpNow (d : Dev) : List W8 :=
  let ns := d.alm.time / 2 ^ 32
  toBE 6 (ns / 10 ^ 9) ++ toBE 4 (ns % 10 ^ 9)

/-- A PTP message leaves (R383): Sync and Pdelay_Resp one-step, except over UDP/IPv6 or with the
two-step flag of its header; every other event message, and those, push a timestamp. DEDUCED, log entry 76. -/
def ptpSend (d : Dev) (p : Nat) (bs : List W8) : Dev × List W8 :=
  match ptpAt bs with
  | none => (d, bs)
  | some (o, k) =>
    let b (i : Nat) : Nat := ((bs[o + i]?).getD 0).toNat
    let type := b 0 % 16
    if 4 ≤ type then (d, bs)
    else if (type = 0 || type = 3) && !bitN (b 6) 1 && k != 2 then
      let bs := patch bs (o + 34) d.ptpNow
      (d, if k = 1 then patch bs (o - 2) [0, 0] else bs)
    else
      let e := toLE 10 d.alm10 ++ slice bs (o + 30) 2 ++ [BitVec.ofNat 8 type, BitVec.ofNat 8 (b 4)]
      let x := d.port p
      if 16 ≤ x.txts.length then (d.setPort p { x with txtsLost := x.txtsLost + 1 }, bs)
      else ((d.setPort p { x with txts := x.txts ++ [e] }).occur (0x600 + p), bs)

/-- The pieces of a result: offset, bytes, whether it is the last (R426). `cap` bytes fit a frame, `tail`
fewer in the last. -/
def pieces (cap tail : Nat) : Nat → Nat → List W8 → List (Nat × List W8 × Bool)
  | 0, _, _ => []
  | n + 1, off, bs =>
    if bs.length + tail ≤ cap || cap ≤ tail then [(off, bs, true)]
    else
      let k := if bs.length ≤ cap then cap - tail else cap
      (off, bs.take k, false) :: pieces cap tail n (off + k) (bs.drop k)

/-- The frames of one result of output furrow `f` with sequence number S (R426). -/
def resultFrames (d : Dev) (f : Nat) (tpl data : List W8) : Dev × List (List W8) :=
  let x := d.furrow f
  let seq := x.P.toNat
  let cap := d.maxFrame x.portNo - x.hlen - 4
  let o := (etherAt tpl).2
  let fold := d.chainFold f seq
  let ptp := (ptpAt (tpl ++ data)).isSome
  let d := if x.chainOn then d.chainSave f seq fold else d
  let fr := (pieces cap (if x.chainOn then 8 else 0) (data.length + 1) 0 data).map (fun (q : Nat × List W8 × Bool) =>
    let chk := x.chainOn && q.2.2
    let hdr := toBE 4 seq ++ toBE 4 q.1 ++ [BitVec.ofNat 8 (b2n q.2.2 * 128 + b2n chk * 64), 1] ++ toBE 2 q.2.1.length
    let bs := (if ptp then tpl else patch tpl (x.hlen - 12) hdr) ++ q.2.1 ++ (if chk then toBE 8 fold else [])
    let bs := ipFields bs x.kind o
    bs ++ List.replicate (60 - bs.length) 0)
  (d, fr)

/-- A slot that is not sent: a counter rises, S advances (R427). DEDUCED, log entry 99. -/
def skipSlot (d : Dev) (f c : Nat) : Dev := d.modFurrow f (fun x => { x.bump c 1 with P := x.P + 1 })

/-- A read by the egress of a port engine; a failure is recorded. DEDUCED, log entry 99. -/
def egressRead (d : Dev) (f pa n : Nat) : Dev × Option (List W8) :=
  match d.streamRead (.port (f / 512) (d.furrow f).piste) 0 pa n with
  | (d, .ok bs) => (d, some bs)
  | (d, .error e) => (d.furErr f e.code pa, none)

/-- The length of a posted result; one that breaks R425 is a free choice. DESIGN CHOICE, log entry 98. -/
def slotLen (d : Dev) (x : Furrow) (n : Nat) : Dev × Nat :=
  if 1 ≤ n ∧ n ≤ x.wb then (d, n) else let (d, v) := d.free; (d, 1 + v % x.wb)

/-- Sends the next posted slot of output furrow `f` (R426, R427). DEDUCED, log entry 99. -/
def sendSlot (d : Dev) (f : Nat) : Dev :=
  let x := d.furrow f
  let g := f / 512
  let k := x.P.toNat % x.nslot
  if !d.portUp x.portNo then d.skipSlot f 3
  else match d.egressRead f (x.ledgerPa k) 8 with
    | (d, none) => d.skipSlot f 4
    | (d, some led) =>
      let (d, n) := d.slotLen x (ofLE (led.take 4))
      match d.egressRead f x.entry x.hlen with
      | (d, none) => d.skipSlot f 4
      | (d, some tpl) => match d.egressRead f (x.slotPa k) n with
        | (d, none) => d.skipSlot f 4
        | (d, some data) =>
          let (d, frames) := d.resultFrames f tpl data
          let d := frames.foldl (fun d fr => let (d, fr) := d.ptpSend x.portNo fr; d.sendFrame x.portNo false fr) d
          let t := d.alm10
          let w := [(led[4]?).getD 0 ||| 1]
          let put (d : Dev) (pa : Nat) (bs : List W8) : Dev :=
            match d.streamWrite (.port g x.piste) pa bs with
            | (d, .ok _) => d
            | (d, .error e) => d.furErr f e.code pa
          let d := put d (x.ledgerPa k + 8) (toLE 8 (t % 2 ^ 48) ++ toLE 4 (t / 2 ^ 48))
          let d := put d (x.ledgerPa k + 4) w
          d.modFurrow f (fun x => { (x.bump 1 1).bump 2 frames.length with P := x.P + 1 })

/-- Output furrows of a port with a slot to send. -/
def outReady (d : Dev) (p f : Nat) : Bool :=
  let x := d.furrow f
  x.form == 2 && !x.piste && x.st == .enabled && x.portNo == p && x.P != x.Q && d.chainReady f

/-- The bytes of a furrow's next posted slot, as its ledger says. -/
def nextLen (d : Dev) (f : Nat) : Nat :=
  let x := d.furrow f
  match (d.streamRead (.port (f / 512) x.piste) 0 (x.ledgerPa (x.P.toNat % x.nslot)) 4).2 with
  | .ok bs => min (ofLE bs) x.wb
  | .error _ => 0

/-- The priority of a Bulk furrow's frames: of its template's VLAN tag, else 0. DEDUCED, log entry 97. -/
def bulkPrio (d : Dev) (f : Nat) : Nat :=
  let x := d.furrow f
  if !x.vlen then 0
  else match (d.streamRead (.port (f / 512) x.piste) 0 (x.entry + 14) 1).2 with
    | .ok bs => ofLE bs / 32
    | .error _ => 0

/-- The furrow whose slot a port sends next: after its express queue, Standard by deficit round robin, Bulk
in post order, the classes by deficit round robin (R429). DEDUCED, log entry 97. -/
def pickOut (d : Dev) (p : Nat) : PortEng × Option Nat :=
  let g := p / 2
  let x := d.peng g
  let std := (d.furrows.map Prod.fst).filter (fun f => (d.furrow f).cls == 0 && d.outReady p f)
  let fheads := std.map (fun f => (f, (d.furrow f).quant * 64, d.nextLen f))
  let bulk := x.posts.find? (fun f => d.outReady p f && !(d.port p).stopped.getLsbD (d.bulkPrio f))
  let quanta := d.obj 0x3114 (g + 1)
  let (fs, pick) := drr (x.furOut.get {} p) fheads
  let heads := (match pick with | some f => [(0, fld quanta 15 8 * 1024, d.nextLen f)] | none => []) ++
    (match bulk with | some f => [(1, fld quanta 7 0 * 1024, d.nextLen f)] | none => [])
  match drr (x.clsOut.get {} p) heads with
  | (cs, some 0) => ({ x with clsOut := x.clsOut.put p cs, furOut := x.furOut.put p fs }, pick)
  | (cs, some _) => ({ x with clsOut := x.clsOut.put p cs, posts := match bulk with | some f => x.posts.erase f | none => x.posts }, bulk)
  | (_, none) => (x, none)

/-- OUTPUT_SEND: a port engine sends the next posted slot of port `p`. -/
def outputSend (d : Dev) (p : Nat) : Dev :=
  let x := d.port p
  if d.frozen (40 + p / 2) || (d.portUp p && (x.paused || !x.express.isEmpty)) then d
  else match d.pickOut p with
    | (_, none) => d
    | (e, some f) => (d.setPeng (p / 2) e).sendSlot f

/-- PISTE_RESULT_FETCH (R256, R427): the oldest committed run's result is fetched, its buffer is free, and its
frame enters the express queue; it counts as sent when it leaves. DEDUCED, log entries 99 and 100. -/
def resultFetch (d : Dev) (e : Nat) : Dev :=
  match (d.engine e).done with
  | [] => d
  | r :: rest =>
    let s := d.pslot e r.slot
    let f := (d.furrow s.furrow).out
    let x := d.furrow f
    if d.frozen (40 + f / 512) || !d.chainReady f then d
    else
      let d := d.setEngine e { d.engine e with done := rest }
      if x.st != .enabled then d.noResult e r
      else if !d.portUp x.portNo then (d.skipSlot f 3).noResult e r
      else match d.egressRead f (storeBase e + s.rbuf r.buf) s.rlenN with
        | (d, none) => (d.skipSlot f 4).noResult e r
        | (d, some data) => match d.egressRead f x.entry x.hlen with
          | (d, none) => (d.skipSlot f 4).noResult e r
          | (d, some tpl) =>
            let (d, frames) := d.resultFrames f tpl data
            let d := d.modPort x.portNo (fun y => { y with
              express := y.express ++ frames.map (fun fr => ⟨f, e, r.slot, r.buf, r.at_, r.missed, fr⟩) })
            d.modFurrow f (fun x => { x with P := x.P + 1 })

end Dev
end Sys2Proof.Machine
end

