-- ==== Sys2Proof/Machine/Partner.lean ====
section
/-! DEFINITION. Partners: the table, admission and eviction, the greeting budget and queue, heartbeats and
their loss (R437-R445), with the authentication of partner frames (R488, R489). -/

namespace Sys2Proof.Machine

/-- A keyed Pelz frame as it reached the FV96: key slot, frame counter, and whether its ICV is right. -/
structure Keyed where
  slot : Nat
  ctr  : Nat
  icv  : Bool
  deriving DecidableEq, Repr

namespace Dev

/-! Keyed frames (R487-R489). -/

/-- A slot holds a key. DEDUCED, log entry 121. -/
def hasKey (d : Dev) (s : Nat) : Bool := (d.dict.keys.get [] s).any (· != 0)

/-- A frame of a partner slot: authenticated, or counted as a failure (R488). DEDUCED, log entry 104. -/
def partnerAuth (d : Dev) (k : Keyed) : Dev × Bool :=
  if decide (k.slot < 4) && d.role k.slot == 2 && d.hasKey k.slot && k.icv then (d, true) else (d.countPelz 1 4, false)

/-- The replay rule for a tracked sender (R489): the record after the frame, or a replay. -/
def replay (m : SMap Nat) (k : Keyed) : Option (SMap Nat) :=
  match SMap.find m k.slot with
  | some c => if k.ctr ≤ c then none else some (m.put k.slot k.ctr)
  | none => some (m.put k.slot k.ctr)

/-- A key write clears the records of its slot (R489). -/
def clearReplay (d : Dev) (s : Nat) : Dev :=
  let p := d.partners
  { d with partners := { p with
      table := p.table.map (fun e => (e.1, { e.2 with ctr := e.2.ctr.del s })),
      queue := p.queue.map (fun g => { g with ctr := g.ctr.del s }) } }

/-! The table (R437, R438, R445). -/

def setPartner (d : Dev) (n : Nat) (x : Partner) : Dev :=
  { d with partners := { d.partners with table := d.partners.table.put n x } }

/-- The entry of a MAC address and port. -/
def partnerAt (d : Dev) (mac p : Nat) : Option Nat :=
  (d.partners.table.find? (fun e => e.2.st != 0 && e.2.mac == mac && e.2.port == p)).map Prod.fst

/-- The lowest EMPTY index. -/
def emptyPartner (d : Dev) : Option Nat := (List.range 256).find? (fun n => (d.partner n).st == 0)

/-- Input furrows bound to partner entry `n`. -/
def partnerFurrows (d : Dev) (n : Nat) : List Nat :=
  (d.furrows.filter (fun y => decide (y.2.form ≤ 1) && !y.2.anysrc && y.2.partner == n)).map Prod.fst

/-- An entry becomes ADMITTED: its quiesced furrows resume (R445). -/
def partnerResume (d : Dev) (n : Nat) : Dev :=
  ((d.partnerFurrows n).foldl (fun d f =>
    d.modFurrow f (fun x => if x.st == .quiesced then { x with st := .enabled } else x)) d).occur 0x638

/-- An entry becomes LOST or EMPTY: its enabled furrows are quiesced, and windows in assembly are cut short
unless LOSSKEEP keeps them (R445). DEDUCED, log entry 105. -/
def partnerQuiesce (d : Dev) (n : Nat) : Dev :=
  ((d.partnerFurrows n).foldl (fun d f =>
    let x := d.furrow f
    if x.st == .enabled then
      let d := d.setFurrow f { x with st := .quiesced }
      if x.losskeep then d else d.cutAsm f 0
    else d) d).occur 0x638

/-- Admits a partner at entry `n` with what its queued greeting recorded. -/
def admitAt (d : Dev) (n mac p : Nat) (pid : W64) (period : Nat) (byRule : Bool) (ctr : SMap Nat) : Dev :=
  let d := { d with partners := { d.partners with queue := d.partners.queue.filter (fun g => !(g.mac == mac && g.port == p)) } }
  (d.setPartner n { st := 1, port := p, mac := mac, pid := pid, period := period, byRule := byRule, last := d.mono, ctr := ctr }).partnerResume n

/-- The queued greeting of a MAC address and port. -/
def queuedGreet (d : Dev) (mac p : Nat) : Option Greet := d.partners.queue.find? (fun g => g.mac == mac && g.port == p)

/-- PARTNER_ADMIT (R438). DEDUCED, log entry 102. -/
def partnerAdmit (d : Dev) (idx mac p period : Nat) (pid : W64) : WRes :=
  need (period == 0 || (decide (10 ≤ period) && decide (period ≤ 10000))) .range <|
  need (decide (p < 16)) .range <|
  let g := d.queuedGreet mac p
  let per := if period != 0 then period else (g.map Greet.period).getD (d.obj 0x1112 1)
  let per := if per = 0 then d.obj 0x1112 1 else per
  match (if idx = 0xFF then d.emptyPartner else some idx) with
  | none => .error .busy
  | some n =>
    need ((d.partner n).st == 0) .busy <|
    need (d.partnerAt mac p).isNone .conflict <|
    .ok (d.admitAt n mac p pid per false ((g.map Greet.ctr).getD []))

/-- PARTNER_EVICT (R438). -/
def partnerEvict (d : Dev) (n : Nat) : Dev :=
  if (d.partner n).st = 0 then d
  else (d.partnerQuiesce n).setPartner n {}

/-- A write of 0x1110 (R438). DEDUCED, log entry 102. -/
def partnerCommand (d : Dev) (bs : List W8) : WRes :=
  let b (i : Nat) : Nat := ((bs[i]?).getD 0).toNat
  need (b 9 == 0 && (slice bs 12 4).all (· == 0)) .range <|
  let d := d.setOct 0x1110 1 bs
  match b 0 with
  | 1 => d.partnerAdmit (b 1) (ofBE (slice bs 2 6)) (b 8) (ofLE (slice bs 10 2)) (BitVec.ofNat 64 (ofLE (slice bs 16 8)))
  | 2 => .ok (d.partnerEvict (b 1))
  | _ => .error .range

/-- 0x1100 and 0x1101 (R437). -/
def partnerOcts (d : Dev) (n : Nat) : List W8 :=
  let x := d.partner n
  let seen := x.st != 0 && !(d.port x.port).lldp.isEmpty && (d.port x.port).lldpSrc == x.mac
  [BitVec.ofNat 8 x.st, BitVec.ofNat 8 x.port] ++ toBE 6 x.mac ++ toLE 8 x.pid.toNat ++ toLE 2 x.period ++
  [BitVec.ofNat 8 (b2n x.byRule + 2 * b2n seen), 0, 0, 0, 0, 0] ++ toLE 8 x.last

/-- 0x1120:01 (R441). -/
def greetHead (d : Dev) : List W8 :=
  match d.partners.queue with
  | [] => List.replicate 32 0
  | g :: _ => toBE 6 g.mac ++ [BitVec.ofNat 8 g.port, BitVec.ofNat 8 g.attempt] ++ toLE 8 g.pid.toNat ++ toLE 2 g.period ++
      List.replicate 6 0 ++ toLE 8 g.at_

/-- GREETING_QUEUE_POP. -/
def greetPop (d : Dev) : Dev := { d with partners := { d.partners with queue := d.partners.queue.drop 1 } }

/-! Greetings (R439-R441). -/

/-- An auto-admit rule that a greeting matches (R439). DEDUCED, log entry 103. -/
def ruleMatches (d : Dev) (p : Nat) (pid : W64) : Bool :=
  (List.range 8).any (fun i =>
    let r := d.oct 0x1130 (i + 1)
    let v := BitVec.ofNat 64 (ofLE (slice r 8 8))
    let m := BitVec.ofNat 64 (ofLE (slice r 16 8))
    (r[0]?).getD 0 == 1 && bitN (ofLE (slice r 2 2)) p && (pid ^^^ v) &&& m == 0)

/-- The answer to a greeting: ADMITTED with the granted period, or WAIT with the retry time (R441, R482). -/
def greetAnswer (d : Dev) (r : Route) (slot : Nat) (wait : Bool) (attempt period : Nat) : Dev :=
  let retry := if wait then min 2000 (10 * 2 ^ min attempt 20) else 0
  let val := [BitVec.ofNat 8 (b2n wait), 0] ++ toLE 2 retry ++ toLE 2 (if wait then 0 else period)
  d.sendPelz r.port (answerHdr r) r.udp (some slot)
    ([0x11, 0x80, 0, 0] ++ toBE 4 0 ++ toBE 2 0 ++ [0, 0] ++ toBE 2 0 ++ toBE 2 val.length ++ toBE 4 0 ++ val)

/-- The period a greeting is granted: what it asks for, or the default where it asks for none. -/
def grantedPeriod (d : Dev) (period : Nat) : Nat := if period = 0 then d.obj 0x1112 1 else period

/-- A greeting is dropped: source 0x639, at most once per ms (R441). -/
def greetDropped (d : Dev) : Dev :=
  if onePerMs d.mono d.partners.dropAt then
    ({ d with partners := { d.partners with dropAt := some d.mono } }).occur 0x639
  else d

/-- A greeting of a new partner: a rule admits it, or it waits in the queue, or the queue is full.
DEDUCED, log entry 103. -/
def greetNew (d : Dev) (r : Route) (p mac : Nat) (k : Keyed) (pid : W64) (attempt period : Nat) : Dev :=
  let old := d.queuedGreet mac p
  match replay ((old.map Greet.ctr).getD []) k with
  | none => d.countPelz 1 5
  | some ctr =>
    match (if d.ruleMatches p pid && (d.partnerAt mac p).isNone then d.emptyPartner else none) with
    | some n =>
      let per := d.grantedPeriod period
      ((d.admitAt n mac p pid per true ctr).countClass p 3).greetAnswer r k.slot false attempt per
    | none =>
      let g : Greet := ⟨mac, p, attempt, pid, period, d.mono, ctr⟩
      let q := d.partners.queue
      if old.isSome then
        let d := { d with partners := { d.partners with queue := q.map (fun (h : Greet) => if h.mac = mac ∧ h.port = p then g else h) } }
        (d.countClass p 3).greetAnswer r k.slot true attempt period
      else if q.length < 256 then
        let d := { d with partners := { d.partners with queue := q ++ [g] } }
        let d := if q.isEmpty then d.occur 0x639 else d
        (d.countClass p 3).greetAnswer r k.slot true attempt period
      else
        (d.countClass p 5).greetDropped

/-- The ports and PD70 that partner handling needs are there (R490). -/
def partnerPath (d : Dev) (p : Nat) : Bool := d.portUp p && d.domOn 70 && d.domOn (portDom p)

/-- A greeting that reaches the classifier of port `p` (R440, R441). DEDUCED, log entry 104. -/
def greetingIn (d : Dev) (r : Route) (p mac : Nat) (k : Keyed) (pid : W64) (attempt period : Nat) : Dev :=
  if !d.partnerPath p then d
  else
    if (d.port p).tokens = 0 then (d.countClass p 4).greetDropped
    else
      let d := d.modPort p (fun x => { x with tokens := x.tokens - 1 })
      match d.partnerAuth k with
      | (d, false) => (d.countClass p 6).greetDropped
      | (d, true) =>
        match d.partnerAt mac p with
        | none => d.greetNew r p mac k pid attempt period
        | some n =>
          let x := d.partner n
          if x.pid != pid then d.greetNew r p mac k pid attempt period
          else match replay x.ctr k with
            | none => d.countPelz 1 5
            | some ctr =>
              let d := d.setPartner n { x with st := 1, last := d.mono, ctr := ctr }
              let d := if x.st = 2 then d.partnerResume n else d
              (d.countClass p 3).greetAnswer r k.slot false attempt x.period

/-- GREETING: the frame is counted as received good; `own` is the address it was sent to. DEDUCED, log entry 106. -/
def greeting (d : Dev) (p mac own : Nat) (k : Keyed) (pid : W64) (attempt period : Nat) : Dev :=
  let r : Route := ⟨p, false, toBE 6 own ++ toBE 6 mac ++ [0x88, 0xB5]⟩
  if d.partnerPath p then (d.countFrame p 0).greetingIn r p mac k pid attempt period else d

/-- A heartbeat that reaches the classifier (R444). DEDUCED, log entry 104. -/
def heartbeatIn (d : Dev) (p mac : Nat) (k : Keyed) (pid : W64) : Dev :=
  if !d.partnerPath p then d
  else
    match d.partnerAuth k with
    | (d, false) => d.countClass p 6
    | (d, true) =>
      match d.partnerAt mac p with
      | none => d.countClass p 6
      | some n =>
        let x := d.partner n
        if x.pid != pid then d.countClass p 6
        else match replay x.ctr k with
          | none => d.countPelz 1 5
          | some ctr =>
            let d := d.setPartner n { x with st := 1, last := d.mono, ctr := ctr }
            let d := if x.st = 2 then d.partnerResume n else d
            d.countClass p 7

/-- HEARTBEAT: the frame is counted as received good. DEDUCED, log entry 106. -/
def heartbeat (d : Dev) (p mac : Nat) (k : Keyed) (pid : W64) : Dev :=
  if d.partnerPath p then (d.countFrame p 0).heartbeatIn p mac k pid else d

/-- HEARTBEAT_LOSS_CHECK: once per ms (R444). The bound of results sent on a lost partner's port is void (R262).
DEDUCED, log entry 105. -/
def lossCheck (d : Dev) : Dev :=
  if !d.domOn 70 then d
  else (List.range 256).foldl (fun d n =>
    let x := d.partner n
    if x.st = 1 && decide (x.last + 3 * x.period * 1000000 < d.mono) then
      ((d.setPartner n { x with st := 2 }).partnerQuiesce n).voidSlots (fun e s => d.slotPort e s == x.port)
    else d) d

/-- TOKEN_REFILL (R440). -/
def tokenRefill (d : Dev) (p : Nat) : Dev :=
  d.modPort p (fun x => if x.st == .up then { x with tokens := min 64 (x.tokens + 1) } else x)

end Dev
end Sys2Proof.Machine
end

