-- ==== Sys2Proof/Machine/ObjRead.lean ====
section
/-! DEFINITION. What the objects of the dictionary read as (R473-R480 and the tables of each chapter),
and the device and memory access of 0x6200 (R502, R503). -/

namespace Sys2Proof.Machine

/-- The characters of a string as bytes. -/
def chars (s : List Nat) : List W8 := s.map (BitVec.ofNat 8)

namespace Dev

/-- A session of the side-band master (R492): plain Mbaros, or a slot of role 3. -/
def isSb (d : Dev) (ses : Nat) : Bool := ses == 5 || (decide (1 ≤ ses) && decide (ses ≤ 4) && d.role (ses - 1) == 3)

/-- The session's master is the configuring master (R496). -/
def configures (d : Dev) (ses : Nat) : Bool := d.isSb ses == d.dict.owner

/-- The transport of a session: 0 PCIe, 1 Ethernet, 2 Mbaros. -/
def transport (d : Dev) (ses : Nat) : Nat := if ses = 0 then 0 else if d.isSb ses then 2 else 1

/-- Straps captured (0x2003). -/
def strapsByte (h : Hl) : Nat := h.boot.toNat + h.clksel.toNat * 4 + b2n h.lbistEn * 16 + b2n h.dbgOff * 32

/-- 0x2021. -/
def clockByte (h : Hl) : Nat :=
  b2n h.xtal + b2n h.disciplined * 2 + b2n h.refclk * 4 + b2n h.mbClock * 8 + b2n h.pcieRef * 16

/-- Numeric objects of PD00 and of the blocks that hold no value of their own in `objs`; `none` for those
that do. DEDUCED, log entry 138. -/
def numObj (d : Dev) (i s : Nat) : Option Nat :=
  let h := d.hl
  if 0x1070 ≤ i ∧ i ≤ 0x107F ∧ s = 3 then some (d.txSaMask (i - 0x1070))
  else if 0x1070 ≤ i ∧ i ≤ 0x107F ∧ s = 0x24 then some (d.txNextPn (i - 0x1070))
  else if 0xA100 ≤ i ∧ i ≤ 0xA117 then some (d.holder i s)
  else match i with
    | 0x1000 => some (match s with
        | 3 => Config.stepping.toNat | 4 => if Config.speed15 then 15 else 12 | 5 => b2n Config.industrial
        | 6 => Config.serial.toNat | _ => 0x0100)
    | 0x1012 => some (b2n d.dict.owner + b2n d.dict.lapsed * 16)
    | 0x1013 => some d.dict.takeover.toNat
    | 0x1041 => some (d.role (s - 1))
    | 0x1050 => if s = 3 then some h.mbId.toNat else none
    | 0x1120 => some d.partners.queue.length
    | 0x2000 => some h.dev.code
    | 0x2001 => some h.devReq.toNat
    | 0x2003 => some (strapsByte h)
    | 0x2010 => some (if s = 1 then 1 else (d.dom (s - 1)).target.toNat)
    | 0x2011 => some (if s = 1 then 2 else (d.dom (s - 1)).st.code)
    | 0x2012 => some (d.dom (s - 1)).cause.toNat
    | 0x2013 => some (d.dom (s - 1)).lost.toNat
    | 0x2020 => some h.time.toNat
    | 0x2021 => some (clockByte h)
    | 0x2031 => some h.resetCause.toNat
    | 0x2032 => some (match s with | 1 => h.warmResets.toNat | 2 => h.wdExpiries.toNat | _ => h.unanswered.toNat)
    | 0x2040 => some h.wdCfg.toNat
    | 0x2042 => some (h.wdLeft / 4000)
    | 0x2050 => some (match s with | 1 => h.safeCause.toNat | 2 => h.safeDetail.toNat | _ => h.safeTime.toNat)
    | 0x3011 => some (d.portState (s - 1))
    | 0x3401 => some (d.bondState (s - 1))
    | 0x3406 => some (d.bond (s - 1)).resends
    | 0x5000 => some (d.engineState (s - 1))
    | 0x5001 => some (d.admittedCycles (s - 1))
    | 0x5101 => some (d.slotStatus s)
    | 0x6020 => some (d.granSpares (s - 1))
    | 0x6021 => some (d.loamSpares (s - 1))
    | 0x9000 => some (match s with | 1 => h.stState.toNat | 2 => h.stStage.toNat | 3 => h.groups.toNat | _ => h.stDur.toNat)
    | 0x9002 => some (b2n h.lbistNext)
    | 0x9003 => some h.lanesFailed.toNat
    | 0x9011 => some d.debugStatus
    | 0x9030 => some (d.reading s)
    | 0x9032 => some h.throttle.toNat
    | 0x9040 => some (if s = 1 then b2n h.hlRail + b2n h.coreRail * 2 else h.dips.toNat)
    | 0xA000 => some (d.gpioCfg (s - 1))
    | 0xA002 => some h.gpHeld.toNat
    | _ => none

/-- Objects of octets, strings and blocks. -/
def octObj (d : Dev) (i s : Nat) : List W8 :=
  if 0x1070 ≤ i ∧ i ≤ 0x107F then padTo 8 (d.oct i s)
  else match i with
    | 0x1000 => chars (if s = 1 then [0x4E, 0x6F, 0x72, 0x62, 0x65, 0x6E, 0x77, 0x69, 0x6E] else [0x46, 0x56, 0x39, 0x36])
    | 0x1034 => (List.range 8).flatMap (fun j => toLE 8 (d.dict.counts.get 0 ((s - 1) * 8 + j)))
    | 0x1050 => if s = 4 then [0x02, 0x4E] ++ toBE 4 Config.serial.toNat else padTo 6 (d.oct i s)
    | 0x1100 => d.partnerOcts (s - 1)
    | 0x1101 => d.partnerOcts (127 + s)
    | 0x1110 => padTo 24 (d.oct i s)
    | 0x1120 => d.greetHead
    | 0x1130 => padTo 24 (d.oct i s)
    | 0x3013 => counterOcts (d.port (s - 1)).frames 6
    | 0x3014 => counterOcts (d.port (s - 1)).classes 8
    | 0x3040 => d.lldpObj (s - 1)
    | 0x3041 => (d.port (s - 1)).txts.flatten
    | 0x3310 => if s = 1 then toLE 10 d.alm.ptmAlm else toLE 8 d.alm.ptmMaster.toNat ++ [0, 0]
    | 0x5109 => padTo 16 (d.oct i s)
    | 0x6004 => padTo 10 (d.oct i s)
    | 0x7020 => padTo 16 d.dict.lastNotice
    | _ => d.oct i s

/-- The block that a tied object belongs to is not ON (R476). -/
def tieOff (d : Dev) (i s : Nat) : Bool := match objTie i s with
  | some k => !d.domOn k
  | none => false

/-- The value of an object other than 0x6200 and 0x7010, as a READ returns it. -/
def objBytes (d : Dev) (t : OTy) (c : Acc) (i s : Nat) : List W8 :=
  if c = .wo then t.zero
  else if s = 0 ∧ plainObj i = none then toLE 1 ((subCount i).getD 0)
  else match t with
    | .bool => [BitVec.ofNat 8 (if d.tieOff i s then objCold i s else (d.numObj i s).getD (d.obj i s))]
    | .int n => toLE n (if d.tieOff i s then objCold i s else (d.numObj i s).getD (d.obj i s))
    | _ => if d.tieOff i s then t.zero else d.octObj i s

/-- The input levels (0xA001): where the FV96 does not drive a ball, the board sets its level.
DESIGN CHOICE, log entry 150. -/
def gpioLevels (d : Dev) (board : Nat) : Nat := (List.range 32).foldl (fun a b => a + b2n (d.gpioLevel b board) * 2 ^ b) 0

/-! 0x6200 (R502, R503). -/

/-- One access of the Headland bridge: a read by a master that does not configure has no side effect; one of XI_SYNC
returns when it may (R329). -/
def bridgeRead (d : Dev) (ses a n : Nat) : Dev × Except Nat (List W8) :=
  if 2 ^ 36 ≤ a then (d, .error 0x21)
  else
    let (e, r) := d.busRead (.bridge (d.isSb ses)) 0 a n
    let e := if d.configures ses then e else { d with freeCtr := e.freeCtr }
    let who := (Orig.bridge (d.isSb ses)).copy
    let e := if isXiSyncPa a && d.syncing who then e.goesOn (.sync who) else e
    (e, match r with
      | .ok bs => .ok bs
      | .error x => .error x.code)

def bridgeWrite (d : Dev) (ses a : Nat) (bs : List W8) : Dev × Except Nat Unit :=
  if 2 ^ 36 ≤ a then (d, .error 0x21)
  else match d.busWrite (.bridge (d.isSb ses)) a bs with
    | (e, .ok _) => (e, .ok ())
    | (e, .error x) => (e, .error x.code)

/-- 8-byte reads in ascending order: the bytes before the first that fails, and its code. DEDUCED, log entry 123. -/
def blockRead (d : Dev) (ses : Nat) : Nat → Nat → List W8 → Dev × List W8 × Option Nat
  | 0, _, acc => (d, acc, none)
  | n + 1, a, acc =>
    match d.bridgeRead ses a 8 with
    | (d, .ok bs) => blockRead d ses n (a + 8) (acc ++ bs)
    | (d, .error c) => (d, acc, some c)

/-- 8-byte writes in ascending order: the bytes done, and the code of the first that fails. DEDUCED, log entry 123. -/
def blockWrite (d : Dev) (ses base : Nat) : SMap (List W8) → Nat → Dev × Nat × Option Nat
  | [], n => (d, n, none)
  | (w, bs) :: r, n =>
    match d.bridgeWrite ses (base + 8 * w) bs with
    | (d, .ok _) => blockWrite d ses base r (n + 8)
    | (d, .error c) => (d, n, some c)

end Dev
end Sys2Proof.Machine
end

