-- ==== Sys2Proof/Machine/ObjWrite.lean ====
section
/-! DEFINITION. What a write of each object does once the general checks have passed (R474, R479-R499,
R504-R508, R575-R578 and the tables of each chapter). -/

namespace Sys2Proof.Machine
namespace Dev

/-! Ownership, keys and heartbeats (R479, R489, R492, R497, R498). -/

/-- Object claims of a class of sessions are dropped. -/
def dropClaims (d : Dev) (p : Nat → Bool) : Dev :=
  { d with dict := { d.dict with oclaims := d.dict.oclaims.filter (fun c => !p c.session) } }

/-- OWNER changes: the change is recorded (R498, R500). -/
def setOwner (d : Dev) (sb : Bool) : Dev :=
  let d := { d with dict := { d.dict with owner := sb, takeover := if sb then 1 else 0 } }
  let d := d.dropClaims (fun s => d.isSb s != sb)
  d.noticeChange 3 0x1012 (b2n sb) 0

/-- TAKEOVER and HAND_BACK: a write of 0x1013 (R498). -/
def takeoverWrite (d : Dev) (v : Nat) : WRes :=
  need (decide (v ≤ 1)) .range <|
  need (if v = 1 then d.dict.lapsed && !d.dict.owner else d.dict.owner) .busy <|
  .ok (d.setOwner (v == 1))

/-- MAIN_HOST_HEARTBEAT: a write of 0x1010 (R497). -/
def beatWrite (d : Dev) (v : Nat) : WRes :=
  let d := d.setObj 0x1010 0 v
  .ok { d with dict := { d.dict with lapsed := false, beatAt := d.hl.time.toNat } }

/-- HEARTBEAT_LAPSE (R497). -/
def lapse (d : Dev) : Dev :=
  if d.dict.lapsed || d.hl.por || d.hl.dev == .held || d.hl.time.toNat ≤ d.dict.beatAt + d.obj 0x1011 0 * 4000 then d
  else ({ d with dict := { d.dict with lapsed := true } }).noticeChange 4 0x1012 0 0

/-- LEASE_EXPIRE (R499): claims whose lease has run out end. -/
def leaseExpire (d : Dev) : Dev :=
  { d with dict := { d.dict with oclaims := d.dict.oclaims.filter (fun c => decide (d.hl.time.toNat < c.until_)) } }

/-- KEY_WRITE: the key of a slot (R489, R492). DEDUCED, log entry 121. -/
def keyWrite (d : Dev) (slot : Nat) (key : List W8) : Dev :=
  let d := (d.endSession (slot + 1)).clearReplay slot
  { d with dict := { d.dict with
      keys := if key.any (· != 0) then d.dict.keys.put slot key else d.dict.keys.del slot
      rxCtr := d.dict.rxCtr.del slot, txCtr := d.dict.txCtr.put slot 1 } }

/-- The role of a slot (R479). -/
def roleWrite (d : Dev) (sb : Bool) (slot v : Nat) : WRes :=
  need (decide (v ≤ 3)) .range <|
  need (sb || (v != 3 && d.role slot != 3)) .denied <|
  let d := d.endSession (slot + 1)
  .ok { d with dict := { d.dict with roles := d.dict.roles.set 0 slot (BitVec.ofNat 8 v) } }

/-! The resource claim table (R504-R508). -/

/-- Kinds of resource: GPIO ball, Almanac unit, CVU, Drill channel. -/
inductive Res where
  | ball (b : Nat) | unit (u : Nat) | cvu (c : Nat) | chan (n c : Nat)
  deriving DecidableEq, Repr

def Res.of (i s : Nat) : Res :=
  match i with
  | 0xA100 => .ball (s - 1)
  | 0xA101 => .unit (s - 1)
  | 0xA102 => .cvu (s - 1)
  | _ => .chan (i - 0xA110) (s - 1)

/-- Holders that a write of the table may name for a resource (R504). -/
def mayHold (r : Res) (v : Nat) : Bool :=
  let n := v % 256
  match v / 256 with
  | 0 => n == 0
  | 1 => n == 0
  | 2 => n == 0 && (match r with | .ball _ | .unit _ => true | _ => false)
  | 3 => decide (n < 16) && (match r with | .cvu _ => true | .chan _ c => decide (4 ≤ c) | _ => false)
  | 4 => decide (n < 8) && (match r with | .cvu _ => true | _ => false)
  | _ => false

/-- A resource in use (R506). -/
def resBusy (d : Dev) (r : Res) : Bool :=
  match r with
  | .chan n c => (d.chan n c).active
  | .cvu c =>
    (d.cvu c).att.isSome || d.furrows.any (fun x => x.2.enabledSt && x.2.chainOn && x.2.cvu == c)
  | .unit u => (d.ccUnit u).mode != 0
  | .ball b => (List.range 8).any (fun u => (d.ccUnit u).mode != 0 && (d.ccUnit u).ball == b) || d.gpioFunc b != 0

/-- A write of a claim table entry (R505). DEDUCED, log entries 118, 119 and 152. -/
def claimWrite (d : Dev) (ses i s v : Nat) : WRes :=
  let r := Res.of i s
  let cur := d.holder i s
  need (mayHold r v) .range <|
  if cur = v then .ok d
  else if v ≠ 0 then need (cur == 0) .conflict <| .ok (d.setHolder i s v)
  else
    let k := cur / 256
    let onUnit := match r with | .unit _ => true | _ => false
    need (!(onUnit && (k == 4 || k == 5))) .busy <|
    need ((k == 2 && d.isSb ses) || ((k == 1 || k == 3 || k == 4) && d.configures ses)) .denied <|
    need (!d.resBusy r) .busy <|
    let d := d.setHolder i s 0
    .ok (match r with
      | .ball b => d.setHl (fun h => { h with gpio := h.gpio.del b, gpHeld := h.gpHeld &&& ~~~ BitVec.ofNat 32 (2 ^ b) })
      | _ => d)

/-! GPIO (R575-R577). -/

/-- Values of a GPIO configuration object (R576). DEDUCED, log entry 151. -/
def gpioRange (b v : Nat) : Bool :=
  fld v 15 12 == 0 && fld v 2 0 == 0 && fld v 11 10 != 3 && fld v 9 8 != 3 && fld v 7 6 != 3 &&
  (fld v 11 10 != 2 || b == 30 || b == 31)

/-- GPIO_CONFIGURE: a write of 0xA000. DEDUCED, log entries 151 and 152. -/
def gpioWrite (d : Dev) (ses b v : Nat) : WRes :=
  need (gpioRange b v) .range <|
  need (d.ballHolder b == (if d.isSb ses then 0x200 else 0x100)) .denied <|
  need (d.hl.dev != .safe) .busy <|
  let d := d.setHl (fun h => { h with gpio := h.gpio.set 0x0040 b (BitVec.ofNat 16 v), gpHeld := h.gpHeld &&& ~~~ BitVec.ofNat 32 (2 ^ b) })
  .ok (match d.gpioDrives b with
    | some l => d.emit (.gpio b l)
    | none => d)

/-! Ranges of objects that a write only stores. -/

/-- Whether a stored value is in range (R474). DEDUCED, log entry 122. -/
def inRange (i s v : Nat) : Bool :=
  match i with
  | 0x1011 => decide (100 ≤ v) && decide (v ≤ 60000)
  | 0x1032 => decide (v < 4) || v == 0xFF
  | 0x1050 => if s = 5 then decide (2 ≤ v) && decide (v ≤ 32) else true
  | 0x1112 => decide (10 ≤ v) && decide (v ≤ 10000)
  | 0x2002 => decide (v ≤ 1)
  | 0x2060 => decide (1 ≤ v) && decide (v ≤ 5)
  | 0x3012 => decide (v ≤ 10000)
  | 0x3300 | 0x3404 | 0x3405 => v % 4096 == 0
  | 0x3402 => decide (10 ≤ v) && decide (v ≤ 1000000)
  | 0x4200 => decide (v < 4)
  | 0x4201 => decide (v < 16)
  | 0x5102 => decide (v ≤ 1)
  | 0x6100 => decide (v < 16)
  | 0x6110 => decide (v < 2 ^ 46) && fld v 11 2 == 0 && fld v 1 0 != 3
  | 0x9031 => decide (60 ≤ v) && decide (v ≤ if Config.industrial then 105 else 95)
  | _ => true

/-- A write of 0x6100 (R309): BUSY unless all threads of the tiller are STOPPED and no seed of it is in flight; the
micro-TLB empties. -/
def partWrite (d : Dev) (t v : Nat) : WRes :=
  need (decide (v < 16)) .range <|
  need ((List.range 4).all (fun k => (d.thread t k).st == .stopped) &&
    !d.seeds.any (fun s => s.tiller == t && s.links.any (fun l => !l.gone))) .busy <|
  .ok ((d.setObj 0x6100 (t + 1) v).modTiller t (fun x => { x with utlb := [] }))

/-- A write of 0x6110 (R310): the PARTITION invalidation, and the wait of XI_SYNC for it before the response. -/
def root2Write (d : Dev) (p v : Nat) : WRes :=
  let who := 500 + p
  need (inRange 0x6110 (p + 1) v) .range <|
  let d := (d.setObj 0x6110 (p + 1) v).xiPart who p
  .ok (if d.syncing who then d.goesOn (.sync who) else d)

/-- A write of an object other than 0x6200 and 0x2010, of a fitting type, by session `ses`. DEDUCED, log entry 122. -/
def objSet (d : Dev) (ses i s : Nat) (t : OTy) (bs : List W8) : WRes :=
  let v := ofLE bs
  need (t != .bool || decide (v ≤ 1)) .range <|
  if 0x1060 ≤ i ∧ i ≤ 0x106F then d.saWrite (i - 0x1060) s bs
  else if 0x1070 ≤ i ∧ i ≤ 0x107F then d.scWrite (i - 0x1070) s bs
  else if 0x3110 ≤ i ∧ i ≤ 0x3114 then d.queueObjWrite i (s - 1) v
  else if 0xA100 ≤ i ∧ i ≤ 0xA117 then d.claimWrite ses i s v
  else match i with
    | 0x1010 => d.beatWrite v
    | 0x1013 => d.takeoverWrite v
    | 0x1040 => .ok (d.keyWrite (s - 1) bs)
    | 0x1041 => d.roleWrite (d.isSb ses) (s - 1) v
    | 0x1110 => d.partnerCommand bs
    | 0x1120 => .ok d.greetPop
    | 0x1130 => need (decide ((bs.headD 0).toNat ≤ 1)) .range <| .ok (d.setOct i s bs)
    | 0x2001 => d.deviceRequest v
    | 0x2030 => d.resetRequest v
    | 0x2040 => d.watchdogWrite (d.isSb ses) v
    | 0x2041 => d.watchdogKick v
    | 0x3010 => d.portCfgWrite (s - 1) v
    | 0x3030 => need (d.macsecCfgRange (s - 1) v) .range <| .ok (d.setObj i s v)
    | 0x3100 => d.furCommand v
    | 0x3120 => d.timeoutUnitWrite (s - 1) v
    | 0x3400 => d.bondCfgWrite (s - 1) v
    | 0x5100 => d.admitWrite s v
    | 0x5108 => d.monitorWrite (s - 1) v
    | 0x6100 => d.partWrite (s - 1) v
    | 0x6110 => d.root2Write (s - 1) v
    | 0x9002 => .ok (d.setHl (fun h => { h with lbistNext := v == 1 }))
    | 0x9010 => need (v == 1 || (v == 0 && d.obj 0x9010 0 == 0)) .range <| .ok (if v = 1 then d.debugLock else d)
    | 0x9033 => let d := d.setObj i s v
                .ok (if v = 0 then d.setThrottle 0 else d)
    | 0xA000 => d.gpioWrite ses (s - 1) v
    | 0x1050 => if s = 1 then .ok (d.setOct i s bs) else need (inRange i s v) .range <| .ok (d.setObj i s v)
    | _ => need (inRange i s v) .range <| .ok (d.setObj i s v)

/-! Rights, claims and versions (R475, R496, R499, R500). -/

/-- The master of session `ses` may write an object of class `c` (R496). -/
def mayWrite (d : Dev) (ses i : Nat) (c : Acc) : Bool :=
  if i = 0x1010 then !d.isSb ses
  else match c with
    | .ro => false
    | .rw | .wo => true
    | .rws => d.isSb ses
    | .rwh => d.configures ses

def objKey (i s : Nat) : Nat := i * 256 + s
def version (d : Dev) (i s : Nat) : Nat := (d.dict.vers.get 0 (objKey i s)).toNat
def bumpVersion (d : Dev) (i s : Nat) : Dev :=
  { d with dict := { d.dict with vers := d.dict.vers.put (objKey i s) (BitVec.ofNat 16 (d.version i s + 1)) } }

/-- The claim on an object that still lasts. -/
def claimOn (d : Dev) (i s : Nat) : Option OClaim :=
  d.dict.oclaims.find? (fun c => c.obj == objKey i s && decide (d.hl.time.toNat < c.until_))

/-- Another session's claim blocks session `ses` (R499): a main-host claim never blocks the side-band master. -/
def claimBlocks (d : Dev) (ses i s : Nat) : Bool :=
  match d.claimOn i s with
  | some c => c.session != ses && !(d.isSb ses && !d.isSb c.session)
  | none => false

/-- The side-band master writes an object that a main-host session has claimed: the claim is dropped and
the break recorded, with the version after the write. DEDUCED, log entry 120. -/
def breakClaim (d : Dev) (ses i s : Nat) : Dev :=
  match d.claimOn i s with
  | some c =>
    if c.session != ses && d.isSb ses && !d.isSb c.session then
      let d := { d with dict := { d.dict with oclaims := d.dict.oclaims.filter (fun x => x.obj != objKey i s) } }
      d.noticeChange 5 i s (d.version i s)
    else d
  | none => d

/-- What follows an accepted write: version, broken claim, notice of a side-band write to an RW or WO object.
DEDUCED, log entries 88 and 118. -/
def written (d : Dev) (ses i s : Nat) (c : Acc) (changes : Bool) : Dev :=
  let d := if changes then d.bumpVersion i s else d
  let d := d.breakClaim ses i s
  if d.isSb ses && (c == .rw || c == .wo) then d.noticeChange 2 i s (d.version i s) else d

/-- The checks from NO_OBJECT to STALE that an operation on an object makes, in the order of R483. `write`
where it writes the object, `claim` where it claims it; `ver` the version that IFVER names. -/
def objGate (d : Dev) (ses i s : Nat) (write claim : Bool) (ver : Option Nat) : Except Status (OTy × Acc) :=
  match objDef i s with
  | none => .error .noObject
  | some (t, c) =>
    if !d.domOn (objHeld i) then .error .off
    else if write && d.tieOff i s then .error .off
    else if (write || claim) && !d.mayWrite ses i c then .error .denied
    else if (write || claim) && d.claimBlocks ses i s then .error .claimed
    else match ver with
      | some v => if v = d.version i s then .ok (t, c) else .error .stale
      | none => .ok (t, c)

end Dev
end Sys2Proof.Machine
end

