-- ==== Sys2Proof/Machine/Dict.lean ====
section
/-! DEFINITION. Pelz messages, their operations, sessions and transports (R481-R503). -/

namespace Sys2Proof.Machine

/-- The message whose bytes are given. -/
def Msg.ofBytes (bs : List W8) : Msg :=
  let f (i n : Nat) : Nat := ofBE (slice bs i n)
  { op := f 0 1, flags := f 1 1, b11 := f 11 1, seq := f 4 4, index := f 8 2, sub := f 10 1, ver := f 12 2,
    len := f 14 2, off := f 16 4, val := bs.drop 20 }

def Msg.ifver (m : Msg) : Option Nat := if bitN m.flags 6 then some m.ver else none
def Msg.last (m : Msg) : Bool := bitN m.flags 5

/-- BAD_OP: an operation that no session may send, or a bit that must be 0 (R483). -/
def Msg.bad (m : Msg) : Bool := !(decide (1 ≤ m.op) && decide (m.op ≤ 5)) || m.flags % 32 != 0 || m.b11 != 0

/-- A request whose number is ahead of the session's last one (R493). -/
def Session.ahead (x : Session) (m : Msg) : Bool :=
  match x.seq with
  | some k => decide ((m.seq + 2 ^ 32 - k.toNat) % 2 ^ 32 ≤ 2 ^ 31)
  | none => true

/-- The session performs this request: it is no repeat, its operation is known, its number is ahead. -/
def Session.performs (x : Session) (m : Msg) : Bool :=
  x.seq != some (BitVec.ofNat 32 m.seq) && !m.bad && x.ahead m

/-- What an operation answers: status, DETAIL, version, LEN and value. -/
structure Resp where
  status : Status
  detail : Nat := 0
  ver    : Nat := 0
  len    : Nat := 0
  val    : List W8 := []
  deriving DecidableEq, Repr

/-- The bytes of a response (R481). DEDUCED, log entry 109. -/
def Resp.encode (m : Msg) (r : Resp) : List W8 :=
  [BitVec.ofNat 8 m.op, 0x80, BitVec.ofNat 8 r.status.code, BitVec.ofNat 8 r.detail] ++ toBE 4 m.seq ++ toBE 2 m.index ++
  [BitVec.ofNat 8 m.sub, 0] ++ toBE 2 r.ver ++ toBE 2 r.len ++ toBE 4 m.off ++ r.val

/-- RANGE of a segment of 0x6200:04 (R502): the address against the size, address + OFFSET and LEN against 8. -/
def Session.misaligned (x : Session) (m : Msg) : Bool :=
  x.accAddr.toNat % x.accSize.toNat != 0 || (x.accAddr.toNat + m.off) % 8 != 0 || m.len % 8 != 0

namespace Dev

/-! READ (R482, R501-R503). -/

/-- A READ that has passed the general checks. DEDUCED, log entries 76 and 123. -/
def readDomain (d : Dev) (ses i s : Nat) (m : Msg) (max : Nat) : Dev × Resp :=
  let v := d.version i s
  let x := d.session ses
  if !(decide (1 ≤ m.len) && decide (m.len ≤ 1024)) then (d, ⟨.type, 0, v, 0, []⟩)
  else if i = 0x6200 then
    let a := x.accAddr.toNat + m.off
    let n := min m.len (max - m.off)
    if x.misaligned m then (d, ⟨.range, 0, v, 0, []⟩)
    else match d.blockRead ses (n / 8) a [] with
      | (e, bs, none) => (e, ⟨.ok, 0, v, bs.length, bs⟩)
      | (e, bs, some c) => (e, ⟨.access, c, v, bs.length, bs⟩)
  else
    let bs := slice (if d.tieOff i s then [] else d.octObj i s) m.off m.len
    let e := if i = 0x3041 && m.off = 0 then d.modPort (s - 1) (fun x => { x with txts := x.txts.drop (m.len / 14) }) else d
    (e, ⟨.ok, 0, v, bs.length, bs⟩)

/-- The value of an object that is not a DOMAIN, or the failing status with its DETAIL.
DESIGN CHOICE, log entries 132 and 150. -/
def readValue (d : Dev) (ses i s : Nat) (t : OTy) (c : Acc) : Dev × Except (Status × Nat) (List W8) :=
  let x := d.session ses
  match i, s with
  | 0x6200, 1 => (d, .ok (toLE 8 x.accAddr.toNat))
  | 0x6200, 2 => (d, .ok [x.accSize])
  | 0x6200, 3 =>
    if x.accAddr.toNat % x.accSize.toNat ≠ 0 then (d, .error (.range, 0))
    else match d.bridgeRead ses x.accAddr.toNat x.accSize.toNat with
      | (e, .ok bs) => (e, .ok (padTo 8 bs))
      | (e, .error k) => (e, .error (.access, k))
  | 0x7010, 1 => if d.isSb ses then (let (e, n) := d.claimBy true; (e, .ok (toLE 2 n))) else (d, .ok (toLE 2 0x7FF))
  | 0x7010, 2 => if d.isSb ses then (d, .ok (toLE 2 0x7FF)) else (let (e, n) := d.claimBy false; (e, .ok (toLE 2 n)))
  | 0xA001, 0 =>
    let (e, b) := d.free
    (e, .ok (toLE 4 (e.gpioLevels b)))
  | 0x9040, 1 =>
    let (e, b) := d.free
    (e, .ok (toLE 1 (b2n d.hl.hlRail + b2n d.hl.coreRail * 2 + b % 2 * 4)))
  | _, _ => (d, .ok (d.objBytes t c i s))

def opRead (d : Dev) (ses : Nat) (m : Msg) : Dev × Resp :=
  match d.objGate ses m.index m.sub false false none with
  | .error st => (d, ⟨st, 0, d.version m.index m.sub, 0, []⟩)
  | .ok (t, c) =>
    let v := d.version m.index m.sub
    match t with
    | .domain max => d.readDomain ses m.index m.sub m max
    | _ =>
      if m.len ≠ 0 ∨ m.off ≠ 0 then (d, ⟨.type, 0, v, 0, []⟩)
      else match d.readValue ses m.index m.sub t c with
        | (e, .ok bs) => (e, ⟨.ok, 0, v, bs.length, bs⟩)
        | (e, .error (st, k)) => (e, ⟨st, k, v, 0, []⟩)

/-! WRITE (R482, R502, R503). -/

/-- A write of a fitting value of an object that is not a DOMAIN: the device, or what it came to and the
failing status with its DETAIL. `act` is false where only the checks of an access are made. -/
def writeValue (d : Dev) (ses i s : Nat) (t : OTy) (bs : List W8) (act : Bool) : Dev × Except (Status × Nat) Unit :=
  let x := d.session ses
  let v := ofLE bs
  let lift (r : WRes) : Dev × Except (Status × Nat) Unit := match r with
    | .ok e => (e, .ok ())
    | .error st => (d, .error (st, 0))
  match i, s with
  | 0x2010, _ => lift (d.domRequests [(s - 1, v)])
  | 0x6200, 1 => lift (need (decide (v < 2 ^ 46)) .range (.ok (d.setSession ses { x with accAddr := BitVec.ofNat 64 v })))
  | 0x6200, 2 => lift (need (v == 4 || v == 8) .range (.ok (d.setSession ses { x with accSize := BitVec.ofNat 8 v })))
  | 0x6200, 3 =>
    if x.accAddr.toNat % x.accSize.toNat ≠ 0 then (d, .error (.range, 0))
    else if !act then (d, .ok ())
    else match d.bridgeWrite ses x.accAddr.toNat (bs.take x.accSize.toNat) with
      | (e, .ok _) => (e, .ok ())
      | (e, .error k) => (e, .error (.access, k))
  | _, _ => lift (d.objSet ses i s t bs)

/-- Whether an accepted write raises the version: a claim entry that keeps its holder does not change (R505).
DEDUCED, log entry 118. -/
def changes (d : Dev) (i s : Nat) (bs : List W8) : Bool :=
  !(decide (0xA100 ≤ i) && decide (i ≤ 0xA117) && d.holder i s == ofLE bs)

/-- Held segments with the words of one more (R482). DEDUCED, log entry 123. -/
def addWords (m : SMap (List W8)) : Nat → Nat → List W8 → SMap (List W8)
  | 0, _, _ => m
  | n + 1, w, bs => addWords (m.put w (bs.take 8)) n (w + 1) (bs.drop 8)

/-- A segment of 0x6200:04: held until the LAST one, which starts the accesses. DEDUCED, log entries 118 and 123. -/
def writeSegment (d : Dev) (ses : Nat) (m : Msg) (max : Nat) (c : Acc) : Dev × Resp :=
  let i := m.index
  let s := m.sub
  let v := d.version i s
  let x := d.session ses
  if 1024 < m.len ∨ m.val.length < m.len ∨ max < m.off + m.len then (d, ⟨.type, 0, v, 0, []⟩)
  else if x.misaligned m then (d, ⟨.range, 0, v, 0, []⟩)
  else
    let old := match x.held with
      | some (k, ws) => if k = objKey i s then ws else []
      | none => []
    let base := x.accAddr.toNat / 8
    let ws := addWords old (m.len / 8) ((x.accAddr.toNat + m.off) / 8 - base) (m.val.take m.len)
    if !m.last then (d.setSession ses { x with held := some (objKey i s, ws) }, ⟨.ok, 0, v, 0, []⟩)
    else
      let d := d.setSession ses { x with held := none }
      match d.blockWrite ses (8 * base) ws 0 with
      | (e, _, none) => let e := e.written ses i s c true
                        (e, ⟨.ok, 0, e.version i s, 0, []⟩)
      | (e, n, some k) => (e, ⟨.access, k, v, n, []⟩)

def opWrite (d : Dev) (ses : Nat) (m : Msg) : Dev × Resp :=
  let i := m.index
  let s := m.sub
  match d.objGate ses i s true false m.ifver with
  | .error st => (d, ⟨st, 0, d.version i s, 0, []⟩)
  | .ok (t, c) =>
    match t with
    | .domain max => d.writeSegment ses m max c
    | _ =>
      let bs := m.val.take m.len
      if !t.fits m.len || bs.length != m.len || m.off != 0 then (d, ⟨.type, 0, d.version i s, 0, []⟩)
      else match d.writeValue ses i s t bs true with
        | (e, .ok _) => let e := e.written ses i s c (d.changes i s bs)
                        (e, ⟨.ok, 0, e.version i s, 0, []⟩)
        | (e, .error (st, k)) => (e, ⟨st, k, e.version i s, 0, []⟩)

/-! WRITEV (R484). -/

/-- An entry: index, subindex, the zero bytes of its header, value. -/
structure Entry where
  index : Nat
  sub   : Nat
  zero  : Bool
  val   : List W8
  deriving DecidableEq, Repr

/-- The entries that exactly fill a value; `none` where it holds none, or they do not fill it.
DEDUCED, log entry 117. -/
def entries : Nat → List W8 → Option (List Entry)
  | 0, _ => none
  | n + 1, bs =>
    let len := ofBE (slice bs 4 2)
    let size := 8 + (len + 3) / 4 * 4
    if bs.length < size then none
    else
      let e : Entry := ⟨ofBE (slice bs 0 2), ofBE (slice bs 2 1), ofBE (slice bs 3 1) == 0 && ofBE (slice bs 6 2) == 0, slice bs 8 len⟩
      if bs.length = size then some [e] else (entries n (bs.drop size)).map (e :: ·)

/-- The domain requests among entries. -/
def domEntries (es : List Entry) : List (Nat × Nat) :=
  es.filterMap (fun e => if e.index = 0x2010 && e.sub != 0 then some (e.sub - 1, ofLE e.val) else none)

/-- The device as if domain `k` had reached the state that a request asks for, with all that leaving or reaching ON
does to its units (R484, R517). -/
def reached (d : Dev) (k v : Nat) : Dev :=
  let was := (d.dom k).st
  let d := d.modDom k (fun x => { x with st := if v = 1 then .on else if v = 2 then .retention else .off, waiting := false })
  if was = .on ∧ v ≠ 1 then d.domsGone [k] else if was ≠ .on ∧ v = 1 ∧ was ≠ .retention then d.domCold k else d

/-- One entry checked against the state that the earlier entries produce, and that state after it.
DEDUCED, log entry 117. -/
def checkEntry (d sh : Dev) (ses : Nat) (rs : List (Nat × Nat)) (last : Bool) (e : Entry) : Except Status Dev :=
  match sh.objGate ses e.index e.sub true false none with
  | .error st => .error st
  | .ok (t, c) =>
    let isDomain := match t with | .domain _ => true | _ => false
    if isDomain || !t.fits e.val.length then .error .type
    else if !e.zero || (isAction e.index e.sub && !last) then .error .range
    else if e.index = 0x2010 then
      let r := (e.sub - 1, ofLE e.val)
      match sh.domRefuses r.1 r.2 with
      | some st => .error st
      | none => if d.domDepends rs.reverse r then .ok ((sh.reached r.1 r.2).written ses e.index e.sub c true) else .error .dependency
    else match sh.writeValue ses e.index e.sub t e.val false with
      | (x, .ok _) => .ok (x.written ses e.index e.sub c (sh.changes e.index e.sub e.val))
      | (_, .error (st, _)) => .error st

/-- The first entry that fails, with its number. -/
def checkEntries (d : Dev) (ses : Nat) (rs : List (Nat × Nat)) : Dev → Nat → List Entry → Option (Status × Nat)
  | _, _, [] => none
  | sh, n, e :: es =>
    match checkEntry d sh ses rs es.isEmpty e with
    | .error st => some (st, n)
    | .ok sh => checkEntries d ses rs sh (n + 1) es

/-- The entries applied in order; domain requests together, with the last of them. DEDUCED, log entry 117. -/
def applyEntries (ses : Nat) (rs : List (Nat × Nat)) : Dev → List Entry → Dev × Option Nat
  | d, [] => (d, none)
  | d, e :: es =>
    let c := match objDef e.index e.sub with | some x => x.2 | none => .ro
    let t := match objDef e.index e.sub with | some x => x.1 | none => u8
    if e.index = 0x2010 then
      let d := if (domEntries es).isEmpty then d.domApply rs else d
      applyEntries ses rs (d.written ses e.index e.sub c true) es
    else match (if d.tieOff e.index e.sub then (d, .ok ()) else d.writeValue ses e.index e.sub t e.val true) with
      | (x, .error (.access, k)) => (x, some k)
      | (x, _) => applyEntries ses rs (x.written ses e.index e.sub c (d.changes e.index e.sub e.val)) es

/-- DEDUCED, log entry 117. -/
def opWritev (d : Dev) (ses : Nat) (m : Msg) : Dev × Resp :=
  match (if 1024 < m.len ∨ m.val.length < m.len then none else entries 32 (m.val.take m.len)) with
  | none => (d, ⟨.type, 0, 0, 0, []⟩)
  | some es =>
    let rs := domEntries es
    match d.checkEntries ses rs d 0 es with
    | some (st, n) => (d, ⟨st, n, 0, 0, []⟩)
    | none =>
      match applyEntries ses rs d es with
      | (e, none) => (e, ⟨.ok, 0, 0, 0, []⟩)
      | (e, some k) => (e, ⟨.access, k, 0, 0, []⟩)

/-! OCLAIM and ORELEASE (R499). -/

/-- DEDUCED, log entry 120. -/
def opClaimObj (d : Dev) (ses : Nat) (m : Msg) : Dev × Resp :=
  let i := m.index
  let s := m.sub
  let fail (st : Status) : Dev × Resp := (d, ⟨st, 0, d.version i s, 0, []⟩)
  let ms := ofLE (m.val.take 2)
  match d.objGate ses i s false true m.ifver with
  | .error st => fail st
  | .ok _ =>
    let mine := d.dict.oclaims.filter (fun c => c.session == ses && c.obj != objKey i s && decide (d.hl.time.toNat < c.until_))
    if m.len ≠ 2 ∨ m.val.length < 2 ∨ m.off ≠ 0 then fail .type
    else if ms < 100 ∨ 60000 < ms then fail .range
    else if 64 ≤ mine.length then fail .busy
    else
      let d := d.breakClaim ses i s
      let rest := d.dict.oclaims.filter (fun c => c.obj != objKey i s)
      let d := { d with dict := { d.dict with oclaims := rest ++ [⟨objKey i s, ses, d.hl.time.toNat + 4000 * ms⟩] } }
      (d, ⟨.ok, 0, d.version i s, 0, []⟩)

def opReleaseObj (d : Dev) (ses : Nat) (m : Msg) : Dev × Resp :=
  let i := m.index
  let s := m.sub
  let fail (st : Status) : Dev × Resp := (d, ⟨st, 0, d.version i s, 0, []⟩)
  match d.objGate ses i s false false none with
  | .error st => fail st
  | .ok _ =>
    let held := match d.claimOn i s with
      | some c => c.session == ses
      | none => false
    if !held then fail .denied
    else if m.ifver.isSome && m.ifver != some (d.version i s) then fail .stale
    else if m.len ≠ 0 ∨ m.off ≠ 0 then fail .type
    else
      ({ d with dict := { d.dict with oclaims := d.dict.oclaims.filter (fun c => c.obj != objKey i s) } },
        ⟨.ok, 0, d.version i s, 0, []⟩)

/-! Sessions (R492-R494). -/

/-- The operation of a message. -/
def perform (d : Dev) (ses : Nat) (m : Msg) : Dev × Resp :=
  let x := d.session ses
  let other := m.op = 0x03 || (m.op = 0x02 && (x.held.map Prod.fst) != some (objKey m.index m.sub))
  let d := d.setSession ses (if other then { x with held := none } else x)
  match m.op with
  | 0x01 => d.opRead ses m
  | 0x02 => d.opWrite ses m
  | 0x03 => d.opWritev ses m
  | 0x04 => d.opClaimObj ses m
  | _ => d.opReleaseObj ses m

/-- The version that an answer carries where the operation has not been performed (R475). -/
def answerVer (d : Dev) (m : Msg) : Nat :=
  if m.op = 1 ∨ m.op = 2 ∨ m.op = 4 ∨ m.op = 5 then d.version m.index m.sub else 0

/-- The session keeps the number, the answer and the route of the request it has had performed (R493, R500). -/
def keep (d : Dev) (ses : Nat) (r : Option Route) (seq : Nat) (bs : List W8) : Dev :=
  match SMap.find d.dict.sessions ses with
  | some y => d.setSession ses { y with seq := some (BitVec.ofNat 32 seq), resp := bs, route := if r.isSome then r else y.route }
  | none => d

/-- A new request at the core, performed or refused. A mailbox message past the request area is TYPE (R486). -/
def handle (d : Dev) (ses : Nat) (m : Msg) : Dev × Resp :=
  if m.bad then (d.setSession ses (d.session ses), ⟨.badOp, 0, d.answerVer m, 0, []⟩)
  else if m.past then (d.setSession ses (d.session ses), ⟨.type, 0, d.answerVer m, 0, []⟩)
  else (d.countPelz (d.transport ses) 0).perform ses m

/-- A message of session `ses` at the core, and the bytes of its answer, unless the operation goes on (R483, R493).
DEDUCED, log entries 108 and 109. -/
def serve (d : Dev) (ses : Nat) (r : Option Route) (m : Msg) : Dev × Option (List W8) :=
  let x := d.session ses
  let tr := d.transport ses
  if x.seq = some (BitVec.ofNat 32 m.seq) then (d.countPelz tr 1, some x.resp)
  else if !m.bad && !x.ahead m then (d.countPelz tr 2, some (Resp.encode m ⟨.seq, 0, d.answerVer m, 0, []⟩))
  else
    let (e, a) := d.handle ses m
    let bs := Resp.encode m a
    match e.dict.busy with
    | none => (e.keep ses r m.seq bs, some bs)
    | some b => ({ e with dict := { e.dict with busy := some { b with ses := ses, route := r, resp := bs, seq := m.seq } } }, none)

/-- The transport of a session serves it now (R486, R488, R490, R491). -/
def sessionUp (d : Dev) (ses : Nat) : Bool :=
  !d.hl.por &&
  if ses = 0 then d.hostReaches && !d.pcie.d3
  else if ses = 5 then d.hl.mbClock && d.obj 0x1050 2 == 0
  else if ses ≤ 4 then
    d.hasKey (ses - 1) && ((d.role (ses - 1) == 1 && d.domOn 70) || (d.role (ses - 1) == 3 && d.hl.mbClock))
  else false

/-- An answer leaves on its session's transport: the mailbox writes it into the response area; a frame goes back where
the request came from (R486, R490). DESIGN CHOICE, log entry 15. -/
def deliver (d : Dev) (ses : Nat) (r : Option Route) (bs : List W8) : Dev :=
  let slot := if ses = 5 then none else some (ses - 1)
  if ses = 0 then { d with dict := { d.dict with mbResp := (List.range bs.length).zip bs, mbStat := 2 } }
  else if slot.any (fun s => !d.hasKey s) then d
  else match r with
    | some r => d.sendPelz r.port (answerHdr r) r.udp slot bs
    | none => d.recordPelz ses slot bs

/-- The core takes a message up, and answers it unless the operation goes on. -/
def take (d : Dev) (ses : Nat) (r : Option Route) (m : Msg) : Dev :=
  match d.serve ses r m with
  | (e, some bs) => e.deliver ses r bs
  | (e, none) => if ses = 0 then { e with dict := { e.dict with mbStat := 1 } } else e

/-- A request of session `ses` is pending (R493). -/
def pendingReq (d : Dev) (ses : Nat) : Bool :=
  d.dict.busy.any (fun b => b.ses == ses && !b.drop) || d.dict.waiting.any (fun w => w.ses == ses)

/-- A message of a session, from the transport on (R493, R494): dropped and counted while the session's request is
pending, waiting while the core is in an operation. DESIGN CHOICE, log entry 15; DEDUCED, log entry 108. -/
def request (d : Dev) (ses : Nat) (r : Option Route) (m : Msg) : Dev :=
  if !d.sessionUp ses then d
  else if d.pendingReq ses then (if ses = 0 then d else d.countPelz (d.transport ses) 3)
  else if d.dict.busy.isSome then
    { d with dict := { d.dict with waiting := d.dict.waiting ++ [⟨ses, r, m⟩], mbStat := if ses = 0 then 1 else d.dict.mbStat } }
  else d.take ses r m

/-- A message of a session whose frames no command brings. DESIGN CHOICE, log entry 15. -/
def message (d : Dev) (ses : Nat) (m : Msg) : Dev := d.request ses none m

/-- What the core goes on with has ended (R310, R434). -/
def opOver (d : Dev) (o : LongOp) : Bool :=
  match o with
  | .disable f => (d.furrow f).st != .disabling
  | .sync who => !d.syncing who

/-- The requests that have waited, up to the first whose operation goes on. -/
def drain : Nat → Dev → Dev
  | 0, d => d
  | n + 1, d => match d.dict.busy, d.dict.waiting with
    | none, w :: ws => drain n ({ d with dict := { d.dict with waiting := ws } }.take w.ses w.route w.msg)
    | _, _ => d

/-- Ends the operation in progress once all it waits for is over: its answer leaves, and the requests that have waited
are taken up in order (R434, R494). DEDUCED, log entry 108. -/
def endOp (d : Dev) : Dev :=
  match d.dict.busy with
  | none => d
  | some b =>
    if !b.ops.all d.opOver then d
    else
      let d := b.ops.foldl (fun d o => match o with | .disable f => d.furResult f 0 | .sync _ => d) d
      let d := { d with dict := { d.dict with busy := none } }
      let d := if b.drop then d else (d.keep b.ses b.route b.seq b.resp).deliver b.ses b.route b.resp
      drain d.dict.waiting.length d

/-- A WRITE of one object as a message. DESIGN CHOICE, log entry 15. -/
def writeObj (d : Dev) (ses seq i s : Nat) (val : List W8) : Dev :=
  d.message ses { op := 0x02, seq := seq, index := i, sub := s, len := val.length, val := val }

/-- A READ of one object as a message. DESIGN CHOICE, log entry 15. -/
def readObj (d : Dev) (ses seq i s : Nat) (len off : Nat) : Dev :=
  d.message ses { op := 0x01, seq := seq, index := i, sub := s, len := len, off := off }

/-! The mailbox (R485, R486). -/

/-- MB_GO: ignored while BUSY. DEDUCED, log entries 108 and 109. -/
def mbGo (d : Dev) : Dev :=
  if !d.hostReaches || d.dict.mbStat == 1 then d
  else
    let bs := (List.range 0x800).map (fun i => d.dict.mbReq.get 0 i)
    let m := Msg.ofBytes (bs.take 20)
    d.message 0 { m with val := slice bs 20 m.len, past := decide (0x800 < 20 + m.len) }

/-- MB_RST: ignored while BUSY. -/
def mbRst (d : Dev) : Dev := if d.hostReaches && d.dict.mbStat != 1 then d.endSession 0 else d

/-- A byte of the mailbox as read. -/
def mbByte (d : Dev) (o : Nat) : W8 :=
  if o = 8 then d.dict.mbStat.setWidth 8
  else if 0x1000 ≤ o ∧ o < 0x1800 then d.dict.mbReq.get 0 (o - 0x1000)
  else if 0x2000 ≤ o ∧ o < 0x2800 then d.dict.mbResp.get 0 (o - 0x2000)
  else 0

/-- A write of the mailbox: the request area, which takes none while BUSY, then MB_CTRL. -/
def mbWrite (d : Dev) (o : Nat) (bs : List W8) : Dev :=
  let req := (List.range bs.length).foldl (fun (m : SMap W8) j =>
    let a := o + j
    if 0x1000 ≤ a ∧ a < 0x1800 then m.put (a - 0x1000) (bs.getD j 0) else m) d.dict.mbReq
  let d := if d.dict.mbStat == 1 then d else { d with dict := { d.dict with mbReq := req } }
  if o = 0 then
    let c := (bs.headD 0).toNat
    let d := if bitN c 1 then d.mbRst else d
    if bitN c 0 then d.mbGo else d
  else d

/-! Host accesses of both BARs (R295, R403). -/

/-- PCIE_INBOUND_WRITE. DEDUCED, log entry 87. -/
def inboundWrite (d : Dev) (bar2 : Bool) (o : Nat) (bs : List W8) : Dev :=
  if !d.hostReaches then d
  else if d.pcie.d3 then d.unsupported
  else if bar2 then d.bar2Write o bs
  else if o < 0x1_0000 then d.mbWrite o bs
  else if o % 4 = 0 ∧ bs.length % 4 = 0 then
    (List.range (bs.length / 4)).foldl (fun d j => d.msixWrite (o + 4 * j) (ofLE (slice bs (4 * j) 4))) d
  else d

/-- PCIE_INBOUND_WRITE as the link brings it (R408): a correctable error is counted and the write performed; a
poisoned one is counted and discarded. DEDUCED, log entry 86. -/
def inboundTlp (d : Dev) (bar2 : Bool) (o : Nat) (bs : List W8) (err : TlpErr) : Dev :=
  if !d.hostReaches then d
  else match err with
    | .none => d.inboundWrite bar2 o bs
    | .correctable => (d.bump 0x3320 5).inboundWrite bar2 o bs
    | .poisoned => d.poisonedTlp.bump 0x3320 1

/-- A byte of BAR0 as read. -/
def bar0Byte (d : Dev) (o : Nat) : W8 :=
  if o < 0x1_0000 then d.mbByte o else BitVec.ofNat 8 (d.msixRead (o / 4 * 4) / 2 ^ (8 * (o % 4)))

/-- PCIE_INBOUND_READ; a read of XI_SYNC is made once it may return (R329). DEDUCED, log entry 54. -/
def inboundRead (d : Dev) (bar2 : Bool) (o n : Nat) : Dev :=
  if !d.hostReaches then d
  else if d.pcie.d3 then d.unsupported
  else if bar2 && isXiSyncPa o && d.syncing Orig.host.copy then d
  else if bar2 then d.bar2Read o n
  else d.emit (.completion true ((List.range n).map (fun j => d.bar0Byte (o + j))))

end Dev
end Sys2Proof.Machine
end

