-- ==== Sys2Proof/Machine/Frames.lean ====
section
/-! DEFINITION. Pelz frames on Ethernet and Mbaros (R487-R491) and the classification of received
frames (R415). -/

namespace Sys2Proof.Machine

/-- A Pelz frame behind its link header (R487): MODE, COUNTER, the 16 bytes of the outer header, the message as the
frame carries it, and the ICV of a keyed one. -/
structure Outer where
  mode : Nat
  ctr  : Nat
  hdr  : List W8
  body : List W8
  icv  : List W8
  deriving DecidableEq, Repr

/-- Where a Pelz frame's outer header begins, and whether it comes in a UDP datagram (R487). -/
def pelzAt (bs : List W8) (udpPort : Nat) : Option (Nat × Bool) :=
  let udp (k : Nat) : Option (Nat × Bool) := match frameKey bs k with
    | some (tp, o) => if tp = udpPort ∧ udpPort ≠ 0 then some (o, true) else none
    | none => none
  let (e, o) := Dev.etherAt bs
  if e = 0x88B5 then some (o, false)
  else match udp 1 with
    | some r => some r
    | none => udp 2

/-- The outer header at an offset (R487); none where VER, MODE or LEN is wrong, or a plain frame has a
nonzero byte 4-15. -/
def outerAt (bs : List W8) (o : Nat) : Option Outer :=
  let f (i n : Nat) : Nat := ofBE (slice bs (o + i) n)
  let mode := f 1 1
  let len := f 2 2
  let keyed := mode < 4
  if bs.length < o + 16 || f 0 1 != 1 || !(decide (mode < 4) || mode == 0x80) || len < 20 || 1044 < len ||
    decide (bs.length < o + 16 + len + (if keyed then 16 else 0)) || (!keyed && f 4 12 != 0) then none
  else some ⟨mode, f 8 8, slice bs o 16, slice bs (o + 16) len, if keyed then slice bs (o + 16 + len) 16 else []⟩

/-- The message of a frame in the clear, and whether its ICV is right (R487): `udp` says how it is framed. -/
def Outer.opened (x : Outer) (key : List W8) (udp : Bool) (frame : List W8) : Bool × List W8 :=
  if x.mode = 0x80 then (true, x.body)
  else
    let ks := Gcm.roundKeys key
    let iv := ofBE (x.hdr.drop 4)
    (Gcm.icv ks iv (Dev.pelzAad udp frame x.hdr) x.body == x.icv, Gcm.crypt ks iv x.body)

namespace Dev

/-- A request of a session by frame, which is answered where it came from (R490, R493, R500). DEDUCED, log entry 107. -/
def pelzRequest (d : Dev) (ses : Nat) (r : Route) (msg : List W8) : Dev :=
  let h := Msg.ofBytes msg
  d.request ses (some r) { h with val := slice msg 20 h.len }

/-- COUNTER of a slot of role 1 or 3 (R489): the record after the frame, or a replay. -/
def slotReplay (d : Dev) (slot ctr : Nat) : Option Dev :=
  match SMap.find d.dict.rxCtr slot with
  | some c => if ctr ≤ c then none else some { d with dict := { d.dict with rxCtr := d.dict.rxCtr.put slot ctr } }
  | none => some { d with dict := { d.dict with rxCtr := d.dict.rxCtr.put slot ctr } }

/-- The last valid Mbaros request came by this route (R500). -/
def fromSb (d : Dev) (r : Route) : Dev := { d with dict := { d.dict with mbRoute := some r } }

/-- A keyed request of slot `s` whose role and transport allow it (R488, R489). -/
def keyedRequest (d : Dev) (tr s ctr : Nat) (r : Route) (msg : List W8) : Dev :=
  match d.slotReplay s ctr with
  | none => d.countPelz tr 5
  | some d => (if tr = 2 then d.fromSb r else d).pelzRequest (s + 1) r msg

/-- The message of a frame opened with the key of its slot. -/
def openFrame (d : Dev) (x : Outer) (udp : Bool) (bs : List W8) : Bool × List W8 :=
  x.opened (d.dict.keys.get [] x.mode) udp bs

/-- A Pelz frame on Ethernet port `p` (R441, R444, R487-R490). DEDUCED, log entries 106 and 107. -/
def pelzEthernet (d : Dev) (p : Nat) (bs : List W8) (o : Nat) (udp : Bool) : Dev :=
  match outerAt bs o with
  | none => d.countPelz 1 4
  | some x =>
    let (icv, msg) := d.openFrame x udp bs
    let r : Route := ⟨p, udp, bs.take o⟩
    let op := ofBE (msg.take 1)
    let mac := ofBE (slice bs 6 6)
    let v := msg.drop 20
    let k : Keyed := ⟨x.mode, x.ctr, icv⟩
    if x.mode = 0x80 then d.countPelz 1 6
    else if op = 0x10 then
      d.greetingIn r p mac k (BitVec.ofNat 64 (ofLE (v.take 8))) (ofLE (slice v 8 1)) (ofLE (slice v 10 2))
    else if op = 0x12 then d.heartbeatIn p mac k (BitVec.ofNat 64 (ofLE (v.take 8)))
    else if !d.domOn 70 then d
    else if icv && d.hasKey x.mode && d.role x.mode == 1 && bitN (d.obj 0x1031 0) p &&
        decide (1 ≤ op) && decide (op ≤ 5) then
      d.keyedRequest 1 x.mode x.ctr r msg
    else d.countPelz 1 4

/-- A Pelz frame on Mbaros (R487, R488, R491): addressed to the FV96 and from the master set. Where a request comes from
is kept (R500). DEDUCED, log entry 107. -/
def pelzMbaros (d : Dev) (bs : List W8) : Dev :=
  let mac := d.octObj 0x1050 1
  if d.hl.por || !d.hl.mbClock then d
  else if bs.take 6 != d.octObj 0x1050 4 || (mac.any (· != 0) && slice bs 6 6 != mac) then d
  else match pelzAt bs (d.obj 0x1030 0) with
    | none => d
    | some (o, udp) =>
      let r : Route := ⟨16, udp, bs.take o⟩
      match outerAt bs o with
      | none => d.countPelz 2 4
      | some x =>
        let (icv, msg) := d.openFrame x udp bs
        let op := ofBE (msg.take 1)
        if x.mode = 0x80 then
          (if d.obj 0x1050 2 == 0 then (d.fromSb r).pelzRequest 5 r msg else d.countPelz 2 6)
        else if icv && d.hasKey x.mode && d.role x.mode == 3 && decide (1 ≤ op) && decide (op ≤ 5) then
          d.keyedRequest 2 x.mode x.ctr r msg
        else d.countPelz 2 4

/-- FRAME_CLASSIFY (R374-R381, R415): a frame as port `p` receives it: whether its FCS is right, and how it stands at
MACsec. DEDUCED, log entry 72. -/
def frameClassify (d : Dev) (p : Nat) (bs : List W8) (fcs : Bool) (tag : Option SecTag) (icv : Bool) : Dev :=
  match d.macPass p fcs bs (if tag.isSome then 32 else 0) with
  | (d, false) => d
  | (d, true) =>
    let (e, o) := etherAt bs
    if e = 0x8808 then
      match ofBE (slice bs o 2) with
      | 0x0001 => d.pauseIn p (ofBE (slice bs (o + 2) 2))
      | 0x0101 => d.pfcIn p ((bs[o + 3]?).getD 0) ((List.range 8).map (fun i => ofBE (slice bs (o + 4 + 2 * i) 2)))
      | _ => d
    else match d.secPass p tag icv bs with
      | (d, false) => d
      | (d, true) => match pelzAt bs (d.obj 0x1030 0) with
        | some (o, udp) => d.pelzEthernet p bs o udp
        | none => if isLldp bs then d.lldpStore p bs else d.furrowFrame p bs tag.isSome

/-- PELZ_FRAME: a frame with a Pelz frame in it, on Mbaros (none) or on an Ethernet port. -/
def pelzFrame (d : Dev) (port : Option Nat) (bs : List W8) (fcs : Bool) : Dev :=
  match port with
  | none => if fcs then d.pelzMbaros bs else d
  | some p => if (pelzAt bs (d.obj 0x1030 0)).isSome then d.frameClassify p bs fcs none false else d

end Dev
end Sys2Proof.Machine
end

