-- ==== Sys2Proof/Machine/Agents.lean ====
section
/-! DEFINITION. Accesses of device registers by an agent, the addresses of the register blocks (R30), and
the messages and small operations that the commands name. -/

namespace Sys2Proof.Machine

/-! Addresses (R30, R163, R283, R326, R359, R385, R411, R447, R449, R468). -/

/-- Where the device region begins. -/
def devBase : Nat := 0x000B_0000_0000
def tcAddr (t : Nat) : Nat := devBase + 0x100_0000 + t * 0x1000
def evcAddr : Nat := devBase + 0x110_0000
/-- The thread page as the agent reaches it: a thread has its own page at one place (R359). -/
def pageAddr (w : Agent) (t k : Nat) : Nat :=
  let all := evcAddr + 0x2_0000 + (4 * t + k) * 0x200
  match w with
  | .thread t' k' => if t' = t ∧ k' = k then evcAddr + 0x8_0000 else all
  | _ => all
def chanAddr (n c : Nat) : Nat := devBase + 0x120_0000 + n * 0x1_0000 + c * 0x100
def cvuAddr (u : Nat) : Nat := devBase + 0x130_0000 + u * 0x1000
def furAddr (f : Nat) : Nat := devBase + 0x144_0000 + f * 0x40
def almAddr : Nat := devBase + 0x150_0000
def xiAddr (q : Nat) : Nat := devBase + 0x170_0000 + q * 0x4_0000

/-- XI_REQ (R326). -/
def xiWord (op : Nat) (asid : BitVec 12) (vpn : BitVec 36) (part : BitVec 4) : Nat :=
  op * 2 ^ 60 + asid.toNat * 2 ^ 48 + vpn.toNat * 2 ^ 12 + part.toNat * 2 ^ 8

/-! Messages of the commands that write one object (R438, R481, R495, R499). -/

/-- An admit command of 0x1110:01. -/
def admitBytes (idx : W8) (mac : BitVec 48) (p : Nat) (period : W16) (pid : W64) : List W8 :=
  [1, idx] ++ toBE 6 mac.toNat ++ [BitVec.ofNat 8 p, 0] ++ toLE 2 period.toNat ++ List.replicate 4 0 ++ toLE 8 pid.toNat
/-- An evict command. -/
def evictBytes (idx : W8) : List W8 := [2, idx] ++ List.replicate 22 0

/-- FLAGS and VERSION of a conditional request (R495). -/
def verFlags (ifver : Option W16) : Nat := b2n ifver.isSome * 2 ^ 6
def verOf (ifver : Option W16) : Nat := (ifver.getD 0).toNat

def writeMsg (seq : BitVec 32) (index : W16) (sub : W8) (ifver : Option W16) (last : Bool) (off : W32) (val : List W8) : Msg :=
  { op := 0x02, flags := verFlags ifver + b2n last * 2 ^ 5, seq := seq.toNat, index := index.toNat, sub := sub.toNat,
    ver := verOf ifver, len := val.length, off := off.toNat, val := val }
def claimMsg (seq : BitVec 32) (index : W16) (sub : W8) (ifver : Option W16) (lease : W16) : Msg :=
  { op := 0x04, flags := verFlags ifver, seq := seq.toNat, index := index.toNat, sub := sub.toNat,
    ver := verOf ifver, len := 2, val := toLE 2 lease.toNat }
def releaseMsg (seq : BitVec 32) (index : W16) (sub : W8) (ifver : Option W16) : Msg :=
  { op := 0x05, flags := verFlags ifver, seq := seq.toNat, index := index.toNat, sub := sub.toNat, ver := verOf ifver }

end Sys2Proof.Machine

namespace Sys2Proof

/-- Index of a resource's entry in the claim table (R504). -/
def Resource.index : Resource → Nat
  | .ball _ => 0xA100 | .unit _ => 0xA101 | .cvu _ => 0xA102 | .chan n _ => 0xA110 + n
/-- Its subindex. -/
def Resource.sub : Resource → Nat
  | .ball b => b + 1 | .unit u => u + 1 | .cvu u => u + 1 | .chan _ c => c + 1

end Sys2Proof

namespace Sys2Proof.Machine
namespace Dev

/-! Accesses by an agent (R33, R41, R551). -/

/-- A write of `v` to the register at `pa`, 8 bytes wide or 4: a failing one is recorded with a thread as
ASYNC_STORE (R357), counted for the host (R408), captured for the debug path (R550). DEDUCED, log entry 16. -/
def regWrite (d : Dev) (w : Agent) (pa : Nat) (wide : Bool) (v : Nat) : Dev :=
  let n := if wide then 8 else 4
  match w with
  | .host => d.inboundWrite true pa (toLE n v)
  | .debug => d.dbgAccWrite false wide pa v
  | .thread t k =>
    if !d.tillerOn t then d
    else match d.busWrite (.thread t k (d.thread t k).priv) pa (toLE n v) with
      | (d, .ok _) => d
      | (d, .error e) => d.asyncStore t k e.code pa t none

/-- A read of the 8-byte register at `pa`: a thread reads it by the LDX it is parked in. DEDUCED, log entry 16. -/
def regRead (d : Dev) (w : Agent) (pa : Nat) : Dev :=
  match w with
  | .host => d.inboundRead true pa 8
  | .debug => d.dbgAccRead false true pa
  | .thread t k => match (d.thread t k).park with
    | .ldx op => if op.pa = pa then d.ldxReturn t k else d
    | _ => d

/-- XI_SYNC (R329). DEDUCED, log entry 54. -/
def xiSyncRead (d : Dev) (w : Agent) (pa : Nat) : Dev :=
  match w with
  | .thread t k => match (d.thread t k).park with
    | .ldx op => if op.pa / 8 * 8 = pa then d.xiSync t k else d
    | _ => d
  | .host => if d.syncing Orig.host.copy then d else d.regRead w pa
  | .debug => if d.syncing (Orig.copy .debug) then d else d.regRead w pa

/-- CRCB, with the chunks it may feed before an event or a stop is due (R193, R194). DESIGN CHOICE, log entry 39. -/
def crcbStep (d : Dev) (t k : Nat) (a : BitVec 5) (cut : Option Nat) : Dev :=
  d.issue t k false (fun d _ => d.opCrcb t k a.toNat cut)

/-! The Event Controller's own moments (R363, R364, R368). -/

/-- MODERATION_TIMEOUT: the coalescing timer of a source that counts reaches MODTIME (R363). DESIGN CHOICE, log entry
179. -/
def modTimeout (d : Dev) (n : Nat) : Dev :=
  let x := d.src n
  if x.count ≠ 0 then d.setSrc n { x with ahead := x.ahead + (128 * x.modTime - d.timerOf x) } else d

/-- IDLE_STATE_UPDATE: the Event Controller learns whether the tiller is thread-idle. DEDUCED, log entry 46. -/
def idleUpdate (d : Dev) (t : Nat) : Dev :=
  if d.domOn 70 then { d with evc := { d.evc with idle := d.evc.idle.put t (d.tillerIdle t) } } else d

/-- DELIVERY_WITHDRAW: a withdrawal that was decided reaches the tillers. DEDUCED, log entry 46. -/
def withdrawalArrives (d : Dev) (n : Nat) : Dev := if (d.src n).wd then d.withdrawNow n else d

/-- MASK_WITHDRAW: 8 fc after its commit, a delivery that was masked in that time ends without a grant.
DEDUCED, log entry 48. -/
def maskWithdraw (d : Dev) (n : Nat) : Dev :=
  let x := d.src n
  if x.dlv && x.window then d.withdrawDelivery n else d

/-! Memory upkeep (R272, R273, R297, R300). -/

/-- LOAM_REFRESH: contents stay; the time it takes is left out. DEDUCED, log entry 59. -/
def loamRefresh (d : Dev) : Dev := d

/-- LOAM_WRITE_QUEUE_DRAIN: a queued write was performed when it was acknowledged, and every later access
is served from the queue or after it, so nothing changes that an access could tell. DEDUCED, log entry 59. -/
def loamDrain (d : Dev) : Dev := d

/-- CORRECTED_WRITEBACK: the corrected granule that has waited longest is written back, unless a write
came first. DEDUCED, log entry 57. -/
def writeBack (d : Dev) : Dev :=
  match d.mem.fixes with
  | g :: _ => { d with mem := d.mem.scrubGranule g }
  | [] => d

/-- The line at position `i` of a Granary quadrant's scrubber, row by row, in the global window.
DEDUCED, log entry 56. -/
def granScrubPa (q i : Nat) : Nat :=
  let r := i / 384
  let slice := 24 * q + i % 384 % 24
  let bank := i % 384 / 24
  let n := bank * 96 + slice
  let f := Nat.xor (r % 512) (fld r 10 9)
  let a := (n / 512 + 2 * r) % 3
  0x0008_0000_0000 + (r * 1536 + a * 512 + Nat.xor (n % 512) f) * 64

/-- The line at position `i` of a Loam stack's scrubber. DEDUCED, log entry 56. -/
def loamScrubPa (k i : Nat) : Nat :=
  let r := i / 256
  let p := Nat.xor (k + 8 * (i % 256)) (Nat.xor (r % 2048) (fld r 17 11))
  (r * 2048 + p) * 64

/-- Uncorrectable granules of a line, as a scrub read finds them (R298, R300, R301). DEDUCED, log entry 56. -/
def scrubLine (d : Dev) (pa : Nat) : Dev :=
  match cellsOf pa 64 with
  | none => d
  | some cs =>
    let d := d.noteSingles .scrub (d.mem.singles cs)
    match d.mem.firstBad cs with
    | some _ => d.noteUncorr pa 3 (origWord .scrub 0)
    | none => d

/-- PATROL_SCRUB_READ: unit 0-3 a Granary quadrant, 4-11 a Loam stack. DEDUCED, log entry 56. -/
def patrolScrub (d : Dev) (u : Nat) : Dev :=
  let gran := decide (u < 4)
  let on := if gran then d.domOn (granDom u) && d.obj 0x6010 (u + 1) != 0 else d.domOn (loamDom (u - 4)) && d.obj 0x6011 (u - 3) != 0
  if !on then d
  else
    let i := d.scrub.get 0 u
    let last := if gran then 384 * 2048 else 256 * 0x4_0000
    let d := d.scrubLine (if gran then granScrubPa u i else loamScrubPa (u - 4) i)
    { d with scrub := d.scrub.put u ((i + 1) % last) }

/-! The dictionary and plain registers. -/

/-- KEY_WRITE: a key, or a role, of a slot (R479, R492). -/
def keyOrRole (d : Dev) (ses seq slot : Nat) (x : KeyOrRole) : Dev :=
  match x with
  | .key bs => d.writeObj ses seq 0x1040 (slot + 1) bs
  | .role v => d.writeObj ses seq 0x1041 (slot + 1) [v]

/-- REGISTER_WRITE (R12-R16, R402, R406, R407). DEDUCED, log entry 16; PRESUMED, log entry 85. -/
def registerWrite (d : Dev) (x : RegTarget) (v : Nat) : Dev :=
  let cfg (f : Pcie → Pcie) : Dev := if d.hostReaches then { d with pcie := f d.pcie } else d
  match x with
  | .device w o wide => d.regWrite w (devBase + o.toNat) wide v
  | .pcieBusMaster => if d.hostReaches then d.msixControl d.pcie.msixEn d.pcie.funcMask (bitN v 0) else d
  | .pcieMsixEnable => if d.hostReaches then d.msixControl (bitN v 0) d.pcie.funcMask d.pcie.busMaster else d
  | .pcieFunctionMask => if d.hostReaches then d.msixControl d.pcie.msixEn (bitN v 0) d.pcie.busMaster else d
  | .pcieD3hot => cfg (fun p => { p with d3 := bitN v 0 })
  | .pcieCompletionTimeout => cfg (fun p => { p with cto := BitVec.ofNat 4 v })

/-! After every command. -/

/-- A freeze that is new, or that reaches a block it did not reach, voids the Piste slots it touches
(R262, R567): `d` before the command, `e` after it. -/
def settleFreeze (d e : Dev) : Dev :=
  if e.inForce && (!d.inForce || d.dbg.blk != e.dbg.blk) then e.voidFrozen else e

end Dev
end Sys2Proof.Machine
end

