-- ==== Sys2Proof/Machine/State.lean ====
section
/-! DEFINITION. The state: the device, and the commands that wait. -/

namespace Sys2Proof.Machine

/-- Why a step may stop. No meaning raises one: every way an operation of the FV96 can end is an effect on
the state (a status, an error flag, an exception, SAFE). Safe. DEDUCED, log entry 14. -/
inductive Fault where
  /-- Raised by nobody: kept so that the type has a value. Safe. -/
  | none
  deriving DecidableEq, Repr

/-- Why a command may be refused. DEDUCED, log entry 14. -/
inductive Refusal where
  /-- A command that has no meaning yet; no arm of `exec` answers it. Safe. -/
  | notModelled (mnemonic : String)
  deriving DecidableEq, Repr

/-- The state of the FV96 and the queue of commands that wait, first in, first out. DESIGN CHOICE, log entry 1. -/
structure State where
  dev     : Dev := {}
  pending : List Instr := []
  deriving DecidableEq, Repr

/-- The FV96 right after power-on reset: in COLD, every domain but PD00 OFF, every register at its reset
value, the memories with nothing listed, no command waiting. DESIGN CHOICE, log entry 8. -/
def State.reset : State := {}

end Sys2Proof.Machine
end

