-- ==== Sys2Proof/Machine/Act.lean ====
section
/-! DEFINITION. How a command acts on the state. -/

namespace Sys2Proof.Machine

/-- The next state of a command whose effect on the device is `f`: the queue stays as it is. -/
def State.act (s : State) (f : Dev → Dev) : Host.Outcome State Fault Refusal :=
  .next { s with dev := s.dev.settleFreeze (f s.dev) }

end Sys2Proof.Machine
end

