-- ==== Sys2Proof/Machine/DebugCmd.lean ====
section
/-! DEFINITION. Commands of the TAP, debug access and plain register writes (R546-R568, R12). -/

namespace Sys2Proof.Machine

/-- TAP_RESET (R546). -/
def execTapReset (s : State) : Host.Outcome State Fault Refusal := s.act (fun d => d.tapReset)

/-- TAP_IR_UPDATE (R548). -/
def execTapIrUpdate (ir : BitVec 8) (s : State) : Host.Outcome State Fault Refusal := s.act (fun d => d.tapIr ir)

/-- DBG_ACC_READ (R551). -/
def execDbgAccRead (space wide : Bool) (addr : BitVec 46) (s : State) : Host.Outcome State Fault Refusal :=
  s.act (fun d => d.dbgAccRead space wide addr.toNat)

/-- DBG_ACC_WRITE (R551). -/
def execDbgAccWrite (space wide : Bool) (addr : BitVec 46) (v : BitVec 64) (s : State) : Host.Outcome State Fault Refusal :=
  s.act (fun d => d.dbgAccWrite space wide addr.toNat v.toNat)

/-- TD_HALT (R555). -/
def execTdHalt (t : Fin 96) (k : Fin 4) (s : State) : Host.Outcome State Fault Refusal :=
  s.act (fun d => d.tdCommand t k)

/-- TD_RESUME (R560). -/
def execTdResume (t : Fin 96) (k : Fin 4) (s : State) : Host.Outcome State Fault Refusal :=
  s.act (fun d => d.tdCommand t (4 + k))

/-- TD_STEP (R557). -/
def execTdStep (t : Fin 96) (k : Fin 4) (s : State) : Host.Outcome State Fault Refusal :=
  s.act (fun d => d.tdCommand t (8 + k))

/-- BREAKPOINT_HIT (R555). -/
def execBreakpointHit (t : Fin 96) (k : Fin 4) (s : State) : Host.Outcome State Fault Refusal :=
  s.act (fun d => d.breakpointHit t k)

/-- CROSS_TRIGGER (R565). -/
def execCrossTrigger (s : State) : Host.Outcome State Fault Refusal := s.act (fun d => d.crossTrigger)

/-- TD_FEED (R559). -/
def execTdFeed (t : Fin 96) (k : Fin 4) (word : BitVec 14) (s : State) : Host.Outcome State Fault Refusal :=
  s.act (fun d => d.dbgAccWrite true true (t * 0x4000 + 0x100 + k * 0x40) (2 ^ 16 + word.toNat))

/-- REGISTER_WINDOW_WRITE (R558). -/
def execRegisterWindowWrite (t : Fin 96) (k : Fin 4) (file : Fin 3) (r : Fin 32) (v : BitVec 32) (s : State) : Host.Outcome State Fault Refusal :=
  s.act (fun d => d.dbgAccWrite true true (t * 0x4000 + 0x1000 + k * 0x400 + file * 0x100 + r * 8) v.toNat)

/-- TD_PC_WRITE (R558). -/
def execTdPcWrite (t : Fin 96) (k : Fin 4) (v : BitVec 14) (s : State) : Host.Outcome State Fault Refusal :=
  s.act (fun d => d.dbgAccWrite true true (t * 0x4000 + 0x110 + k * 0x40) v.toNat)

/-- TT_PTR_WRITE (R566). -/
def execTtPtrWrite (t : Fin 96) (v : BitVec 11) (s : State) : Host.Outcome State Fault Refusal :=
  s.act (fun d => d.dbgAccWrite true true (t * 0x4000 + 0x28) v.toNat)

/-- DEBUG_LOCK (R552). -/
def execDebugLock (ses : Fin 6) (seq : BitVec 32) (s : State) : Host.Outcome State Fault Refusal :=
  s.act (fun d => d.writeObj ses seq.toNat 0x9010 0 [1])

/-- REGISTER_WRITE (R12). -/
def execRegisterWrite (target : RegTarget) (v : BitVec 64) (s : State) : Host.Outcome State Fault Refusal :=
  s.act (fun d => d.registerWrite target v.toNat)

end Sys2Proof.Machine
end

