-- ==== Sys2Proof/Machine/DictCmd.lean ====
section
/-! DEFINITION. Commands of the Pelz dictionary (R482-R508). -/

namespace Sys2Proof.Machine

/-- MB_GO (R486). -/
def execMbGo (s : State) : Host.Outcome State Fault Refusal := s.act (fun d => d.inboundWrite false 0 (toLE 4 1))

/-- MB_RST (R485). -/
def execMbRst (s : State) : Host.Outcome State Fault Refusal := s.act (fun d => d.inboundWrite false 0 (toLE 4 2))

/-- PELZ_FRAME (R488). -/
def execPelzFrame (port : Option (Fin 16)) (bytes : List W8) (fcs : Bool) (s : State) : Host.Outcome State Fault Refusal :=
  s.act (fun d => d.pelzFrame (port.map Fin.val) bytes fcs)

/-- READ (R482). DESIGN CHOICE, log entry 15. -/
def execRead (ses : Fin 6) (seq : BitVec 32) (index : BitVec 16) (sub : BitVec 8) (len : BitVec 16) (off : BitVec 32) (s : State) : Host.Outcome State Fault Refusal :=
  s.act (fun d => d.readObj ses seq.toNat index.toNat sub.toNat len.toNat off.toNat)

/-- WRITE (R482). DESIGN CHOICE, log entry 15. -/
def execWrite (ses : Fin 6) (seq : BitVec 32) (index : BitVec 16) (sub : BitVec 8) (ifver : Option W16) (last : Bool) (off : BitVec 32) (val : List W8) (s : State) : Host.Outcome State Fault Refusal :=
  s.act (fun d => d.message ses (writeMsg seq index sub ifver last off val))

/-- WRITEV (R484). -/
def execWritev (ses : Fin 6) (seq : BitVec 32) (val : List W8) (s : State) : Host.Outcome State Fault Refusal :=
  s.act (fun d => d.message ses { op := 0x03, seq := seq.toNat, len := val.length, val := val })

/-- OCLAIM (R499). -/
def execOclaim (ses : Fin 6) (seq : BitVec 32) (index : BitVec 16) (sub : BitVec 8) (ifver : Option W16) (lease : BitVec 16) (s : State) : Host.Outcome State Fault Refusal :=
  s.act (fun d => d.message ses (claimMsg seq index sub ifver lease))

/-- ORELEASE (R499). -/
def execOrelease (ses : Fin 6) (seq : BitVec 32) (index : BitVec 16) (sub : BitVec 8) (ifver : Option W16) (s : State) : Host.Outcome State Fault Refusal :=
  s.act (fun d => d.message ses (releaseMsg seq index sub ifver))

/-- LEASE_EXPIRE (R499). -/
def execLeaseExpire (s : State) : Host.Outcome State Fault Refusal := s.act (fun d => d.leaseExpire)

/-- MAIN_HOST_HEARTBEAT (R497). -/
def execMainHostHeartbeat (ses : Fin 6) (seq v : BitVec 32) (s : State) : Host.Outcome State Fault Refusal :=
  s.act (fun d => d.writeObj ses seq.toNat 0x1010 0 (toLE 4 v.toNat))

/-- HEARTBEAT_LAPSE (R497). -/
def execHeartbeatLapse (s : State) : Host.Outcome State Fault Refusal := s.act (fun d => d.lapse)

/-- TAKEOVER (R498). -/
def execTakeover (ses : Fin 6) (seq : BitVec 32) (s : State) : Host.Outcome State Fault Refusal :=
  s.act (fun d => d.writeObj ses seq.toNat 0x1013 0 [1])

/-- HAND_BACK (R498). -/
def execHandBack (ses : Fin 6) (seq : BitVec 32) (s : State) : Host.Outcome State Fault Refusal :=
  s.act (fun d => d.writeObj ses seq.toNat 0x1013 0 [0])

/-- KEY_WRITE (R492). -/
def execKeyWrite (ses : Fin 6) (seq : BitVec 32) (slot : Fin 4) (what : KeyOrRole) (s : State) : Host.Outcome State Fault Refusal :=
  s.act (fun d => d.keyOrRole ses seq.toNat slot what)

/-- SIDEBAND_EVENT_CLAIM (R501). -/
def execSidebandEventClaim (ses : Fin 6) (seq : BitVec 32) (s : State) : Host.Outcome State Fault Refusal :=
  s.act (fun d => d.readObj ses seq.toNat 0x7010 1 0 0)

/-- MAIN_HOST_EVENT_CLAIM (R501). -/
def execMainHostEventClaim (ses : Fin 6) (seq : BitVec 32) (s : State) : Host.Outcome State Fault Refusal :=
  s.act (fun d => d.readObj ses seq.toNat 0x7010 2 0 0)

/-- ACCESS_DATA_READ (R503). -/
def execAccessDataRead (ses : Fin 6) (seq : BitVec 32) (s : State) : Host.Outcome State Fault Refusal :=
  s.act (fun d => d.readObj ses seq.toNat 0x6200 3 0 0)

/-- ACCESS_DATA_WRITE (R503). -/
def execAccessDataWrite (ses : Fin 6) (seq : BitVec 32) (v : BitVec 64) (s : State) : Host.Outcome State Fault Refusal :=
  s.act (fun d => d.writeObj ses seq.toNat 0x6200 3 (toLE 8 v.toNat))

/-- ACCESS_BLOCK_READ (R503). -/
def execAccessBlockRead (ses : Fin 6) (seq : BitVec 32) (len : BitVec 16) (off : BitVec 32) (s : State) : Host.Outcome State Fault Refusal :=
  s.act (fun d => d.readObj ses seq.toNat 0x6200 4 len.toNat off.toNat)

/-- ACCESS_BLOCK_WRITE (R503). -/
def execAccessBlockWrite (ses : Fin 6) (seq : BitVec 32) (last : Bool) (off : BitVec 32) (val : List W8) (s : State) : Host.Outcome State Fault Refusal :=
  s.act (fun d => d.message ses (writeMsg seq 0x6200 4 none last off val))

/-- RESOURCE_CLAIM (R505). -/
def execResourceClaim (ses : Fin 6) (seq : BitVec 32) (r : Resource) (holder : BitVec 16) (s : State) : Host.Outcome State Fault Refusal :=
  s.act (fun d => d.writeObj ses seq.toNat r.index r.sub (toLE 2 holder.toNat))

/-- RESOURCE_RELEASE (R505). -/
def execResourceRelease (ses : Fin 6) (seq : BitVec 32) (r : Resource) (s : State) : Host.Outcome State Fault Refusal :=
  s.act (fun d => d.writeObj ses seq.toNat r.index r.sub (toLE 2 0))

end Sys2Proof.Machine
end

