-- ==== Sys2Proof/Machine/DrillCmd.lean ====
section
/-! DEFINITION. Commands of Drills and check-value units (R449-R470). -/

namespace Sys2Proof.Machine

/-- CH_START (R452). -/
def execChStart (w : Agent) (n : Fin 8) (c : Fin 32) (ctrl : BitVec 29) (s : State) : Host.Outcome State Fault Refusal :=
  s.act (fun d => d.regWrite w (chanAddr n c + 0x18) false (2 ^ 31 + ctrl.toNat))

/-- CH_FETCH (R452). -/
def execChFetch (w : Agent) (n : Fin 8) (c : Fin 32) (ctrl : BitVec 29) (s : State) : Host.Outcome State Fault Refusal :=
  s.act (fun d => d.regWrite w (chanAddr n c + 0x18) false (2 ^ 30 + ctrl.toNat))

/-- CH_ABORT (R463). -/
def execChAbort (w : Agent) (n : Fin 8) (c : Fin 32) (s : State) : Host.Outcome State Fault Refusal :=
  s.act (fun d => d.regWrite w (chanAddr n c + 0x18) false (2 ^ 29))

/-- ABORT_COMPLETE (R463). -/
def execAbortComplete (n : Fin 8) (s : State) : Host.Outcome State Fault Refusal := s.act (fun d => d.abortComplete n)

/-- CHANNEL_RUN (R453). -/
def execChannelRun (n : Fin 8) (s : State) : Host.Outcome State Fault Refusal := s.act (fun d => d.channelRun n)

/-- DESCRIPTOR_END (R456). -/
def execDescriptorEnd (n : Fin 8) (s : State) : Host.Outcome State Fault Refusal := s.act (fun d => d.descriptorEnd n)

/-- DESCRIPTOR_LOAD (R458). -/
def execDescriptorLoad (n : Fin 8) (s : State) : Host.Outcome State Fault Refusal := s.act (fun d => d.descriptorLoad n)

/-- TRANSFER_ERROR (R460). -/
def execTransferError (n : Fin 8) (s : State) : Host.Outcome State Fault Refusal := s.act (fun d => d.transferError n)

/-- LATE_WRITE_FAILURE (R461). -/
def execLateWriteFailure (n : Fin 8) (s : State) : Host.Outcome State Fault Refusal :=
  s.act (fun d => d.lateWriteFailure n)

/-- CVU_ATTACH (R470). -/
def execCvuAttach (u : Fin 32) (s : State) : Host.Outcome State Fault Refusal := s.act (fun d => d.cvuAttach u)

/-- CV_INIT (R468). -/
def execCvInit (w : Agent) (u : Fin 32) (s : State) : Host.Outcome State Fault Refusal :=
  s.act (fun d => d.regWrite w (cvuAddr u + 0x30) false 1)

/-- CV_FEED8 (R468). -/
def execCvFeed8 (w : Agent) (u : Fin 32) (v : BitVec 8) (s : State) : Host.Outcome State Fault Refusal :=
  s.act (fun d => d.regWrite w (cvuAddr u + 0x40) false v.toNat)

/-- CV_FEED16 (R468). -/
def execCvFeed16 (w : Agent) (u : Fin 32) (v : BitVec 16) (s : State) : Host.Outcome State Fault Refusal :=
  s.act (fun d => d.regWrite w (cvuAddr u + 0x48) false v.toNat)

/-- CV_FEED32 (R468). -/
def execCvFeed32 (w : Agent) (u : Fin 32) (v : BitVec 32) (s : State) : Host.Outcome State Fault Refusal :=
  s.act (fun d => d.regWrite w (cvuAddr u + 0x50) false v.toNat)

/-- CV_PFX (R468). -/
def execCvPfx (w : Agent) (u : Fin 32) (v : BitVec 64) (s : State) : Host.Outcome State Fault Refusal :=
  s.act (fun d => d.regWrite w (cvuAddr u + 0x58) true v.toNat)

end Sys2Proof.Machine
end

