-- ==== Sys2Proof/Machine/EventCmd.lean ====
section
/-! DEFINITION. Commands of thread control, events, claims, ATOM operations and walks (R168, R169, R324, R346-R368). -/

namespace Sys2Proof.Machine

/-- TC_START (R168). -/
def execTcStart (w : Agent) (t : Fin 96) (k : Fin 4) (s : State) : Host.Outcome State Fault Refusal :=
  s.act (fun d => d.regWrite w (tcAddr t + 0x08) false (2 ^ k.val))

/-- TC_STOP (R169). -/
def execTcStop (w : Agent) (t : Fin 96) (k : Fin 4) (s : State) : Host.Outcome State Fault Refusal :=
  s.act (fun d => d.regWrite w (tcAddr t + 0x08) false (2 ^ (4 + k.val)))

/-- FAST_EVENT (R349). -/
def execFastEvent (t : Fin 96) (k : Fin 4) (s : State) : Host.Outcome State Fault Refusal :=
  s.act (fun d => d.takeEvent t k .fast)

/-- NORMAL_EVENT (R346). -/
def execNormalEvent (t : Fin 96) (k : Fin 4) (s : State) : Host.Outcome State Fault Refusal :=
  s.act (fun d => d.takeEvent t k .normal)

/-- SEED_DONE (R355). -/
def execSeedDone (t : Fin 96) (k : Fin 4) (s : State) : Host.Outcome State Fault Refusal :=
  s.act (fun d => d.takeEvent t k .seedDone)

/-- SEED_FAULT (R355). -/
def execSeedFault (t : Fin 96) (k : Fin 4) (s : State) : Host.Outcome State Fault Refusal :=
  s.act (fun d => d.takeEvent t k .seedFault)

/-- ASYNC_STORE (R357). -/
def execAsyncStore (t : Fin 96) (k : Fin 4) (s : State) : Host.Outcome State Fault Refusal :=
  s.act (fun d => d.takeEvent t k .asyncStore)

/-- AS_POP (R357). -/
def execAsPop (w : Agent) (t : Fin 96) (k : Fin 4) (s : State) : Host.Outcome State Fault Refusal :=
  s.act (fun d => d.regWrite w (pageAddr w t k + 0x110) true 0)

/-- EV_TRIG (R363). -/
def execEvTrig (w : Agent) (n : BitVec 11) (s : State) : Host.Outcome State Fault Refusal :=
  s.act (fun d => d.regWrite w (evcAddr + n.toNat * 0x20 + 0x18) true (2 ^ 63))

/-- DELIVERY_COMMIT (R363). -/
def execDeliveryCommit (n : BitVec 11) (s : State) : Host.Outcome State Fault Refusal :=
  s.act (fun d => d.commitDelivery n.toNat)

/-- MODERATION_TIMEOUT (R363). -/
def execModerationTimeout (n : BitVec 11) (s : State) : Host.Outcome State Fault Refusal :=
  s.act (fun d => d.modTimeout n.toNat)

/-- IDLE_STATE_UPDATE (R363). -/
def execIdleStateUpdate (t : Fin 96) (s : State) : Host.Outcome State Fault Refusal := s.act (fun d => d.idleUpdate t)

/-- DELIVERY_PRESENT (R364). -/
def execDeliveryPresent (n : BitVec 11) (s : State) : Host.Outcome State Fault Refusal :=
  s.act (fun d => d.presentDelivery n.toNat)

/-- DELIVERY_WITHDRAW (R364). -/
def execDeliveryWithdraw (n : BitVec 11) (s : State) : Host.Outcome State Fault Refusal :=
  s.act (fun d => d.withdrawalArrives n.toNat)

/-- MASK_WITHDRAW (R368). -/
def execMaskWithdraw (n : BitVec 11) (s : State) : Host.Outcome State Fault Refusal :=
  s.act (fun d => d.maskWithdraw n.toNat)

/-- CLAIM_DECIDE (R366). -/
def execClaimDecide (t : Fin 96) (k : Fin 4) (s : State) : Host.Outcome State Fault Refusal :=
  s.act (fun d => d.claimDecide t k)

/-- HOST_CLAIM (R366). -/
def execHostClaim (s : State) : Host.Outcome State Fault Refusal :=
  s.act (fun d => d.inboundRead true (evcAddr + 0x1_1000) 8)

/-- ATOM_EXEC (R285). -/
def execAtomExec (t : Fin 96) (k : Fin 4) (s : State) : Host.Outcome State Fault Refusal :=
  s.act (fun d => d.atomExec t k)

/-- WALK_COMPLETE (R324). -/
def execWalkComplete (t : Fin 96) (k : Fin 4) (s : State) : Host.Outcome State Fault Refusal :=
  s.act (fun d => d.walkComplete t k)

end Sys2Proof.Machine
end

