-- ==== Sys2Proof/Machine/FurrowCmd.lean ====
section
/-! DEFINITION. Commands of frames, furrows and partners (R415-R445). -/

namespace Sys2Proof.Machine

/-- FRAME_CLASSIFY (R415). -/
def execFrameClassify (p : Fin 16) (bytes : List W8) (fcs : Bool) (tag : Option SecTag) (icv : Bool) (s : State) :
    Host.Outcome State Fault Refusal :=
  s.act (fun d => d.frameClassify p bytes fcs tag icv)

/-- PFC_XOFF_REPEAT (R430). -/
def execPfcXoffRepeat (p : Fin 16) (s : State) : Host.Outcome State Fault Refusal := s.act (fun d => d.pfcRepeat p)

/-- WINDOW_COMPLETE (R417). -/
def execWindowComplete (f : Fin 4096) (s : State) : Host.Outcome State Fault Refusal :=
  s.act (fun d => d.windowComplete f)

/-- WINDOW_TIMEOUT (R420). -/
def execWindowTimeout (f : Fin 4096) (s : State) : Host.Outcome State Fault Refusal :=
  s.act (fun d => d.windowTimeout f)

/-- FR_REL_WRITE (R419). -/
def execFrRelWrite (w : Agent) (f : Fin 4096) (count : BitVec 32) (s : State) : Host.Outcome State Fault Refusal :=
  s.act (fun d => d.regWrite w (furAddr f + 0x10) false count.toNat)

/-- OUTPUT_POST (R425). -/
def execOutputPost (w : Agent) (f : Fin 4096) (count : BitVec 32) (s : State) : Host.Outcome State Fault Refusal :=
  s.act (fun d => d.regWrite w (furAddr f + 0x10) false count.toNat)

/-- OUTPUT_SEND (R426). -/
def execOutputSend (p : Fin 16) (s : State) : Host.Outcome State Fault Refusal := s.act (fun d => d.outputSend p)

/-- FURROW_ENABLE (R434). -/
def execFurrowEnable (ses : Fin 6) (seq : BitVec 32) (f : Fin 4096) (s : State) : Host.Outcome State Fault Refusal :=
  s.act (fun d => d.writeObj ses seq.toNat 0x3100 1 (toLE 4 (1 * 2 ^ 28 + f)))

/-- FURROW_DISABLE (R434). -/
def execFurrowDisable (ses : Fin 6) (seq : BitVec 32) (f : Fin 4096) (s : State) : Host.Outcome State Fault Refusal :=
  s.act (fun d => d.writeObj ses seq.toNat 0x3100 1 (toLE 4 (2 * 2 ^ 28 + f)))

/-- FURROW_DISABLE_COMPLETE (R434). -/
def execFurrowDisableComplete (f : Fin 4096) (s : State) : Host.Outcome State Fault Refusal :=
  s.act (fun d => (d.furDisabled f).endOp)

/-- FURROW_CLEAR (R434). -/
def execFurrowClear (ses : Fin 6) (seq : BitVec 32) (f : Fin 4096) (s : State) : Host.Outcome State Fault Refusal :=
  s.act (fun d => d.writeObj ses seq.toNat 0x3100 1 (toLE 4 (3 * 2 ^ 28 + f)))

/-- FURROW_RESYNC (R434). -/
def execFurrowResync (ses : Fin 6) (seq : BitVec 32) (f : Fin 4096) (s : State) : Host.Outcome State Fault Refusal :=
  s.act (fun d => d.writeObj ses seq.toNat 0x3100 1 (toLE 4 (4 * 2 ^ 28 + f)))

/-- FURROW_TIMEOUT_UNIT_CLAIM (R435). -/
def execFurrowTimeoutUnitClaim (ses : Fin 6) (seq : BitVec 32) (g u : Fin 8) (s : State) : Host.Outcome State Fault Refusal :=
  s.act (fun d => d.writeObj ses seq.toNat 0x3120 (g + 1) (toLE 1 u))

/-- FURROW_TIMEOUT_UNIT_RELEASE (R435). -/
def execFurrowTimeoutUnitRelease (ses : Fin 6) (seq : BitVec 32) (g : Fin 8) (s : State) : Host.Outcome State Fault Refusal :=
  s.act (fun d => d.writeObj ses seq.toNat 0x3120 (g + 1) (toLE 1 0xFF))

/-- GREETING (R441). -/
def execGreeting (p : Fin 16) (who : Stations) (key : Fin 4) (ctr : BitVec 64) (icv : Bool) (pid : BitVec 64)
    (attempt : BitVec 8) (period : BitVec 16) (s : State) : Host.Outcome State Fault Refusal :=
  s.act (fun d => d.greeting p who.src.toNat who.dst.toNat ⟨key, ctr.toNat, icv⟩ pid attempt.toNat period.toNat)

/-- TOKEN_REFILL (R440). -/
def execTokenRefill (p : Fin 16) (s : State) : Host.Outcome State Fault Refusal := s.act (fun d => d.tokenRefill p)

/-- HEARTBEAT (R444). -/
def execHeartbeat (p : Fin 16) (mac : BitVec 48) (key : Fin 4) (ctr : BitVec 64) (icv : Bool) (pid : BitVec 64) (s : State) : Host.Outcome State Fault Refusal :=
  s.act (fun d => d.heartbeat p mac.toNat ⟨key, ctr.toNat, icv⟩ pid)

/-- HEARTBEAT_LOSS_CHECK (R444). -/
def execHeartbeatLossCheck (s : State) : Host.Outcome State Fault Refusal := s.act (fun d => d.lossCheck)

/-- PARTNER_ADMIT (R438). -/
def execPartnerAdmit (ses : Fin 6) (seq : BitVec 32) (idx : BitVec 8) (mac : BitVec 48) (p : Fin 16) (period : BitVec 16) (pid : BitVec 64) (s : State) : Host.Outcome State Fault Refusal :=
  s.act (fun d => d.writeObj ses seq.toNat 0x1110 1 (admitBytes idx mac p period pid))

/-- PARTNER_EVICT (R438). -/
def execPartnerEvict (ses : Fin 6) (seq : BitVec 32) (idx : BitVec 8) (s : State) : Host.Outcome State Fault Refusal :=
  s.act (fun d => d.writeObj ses seq.toNat 0x1110 1 (evictBytes idx))

/-- GREETING_QUEUE_POP (R441). -/
def execGreetingQueuePop (ses : Fin 6) (seq : BitVec 32) (v : BitVec 8) (s : State) : Host.Outcome State Fault Refusal :=
  s.act (fun d => d.writeObj ses seq.toNat 0x1120 3 [v])

end Sys2Proof.Machine
end

