-- ==== Sys2Proof/Machine/LinkCmd.lean ====
section
/-! DEFINITION. Commands of Hedgerow bonds and PCIe (R389-R408). -/

namespace Sys2Proof.Machine

/-- BOND_ENABLE (R394). -/
def execBondEnable (ses : Fin 6) (seq : BitVec 32) (b : Fin 16) (cfg : BitVec 31) (s : State) : Host.Outcome State Fault Refusal :=
  s.act (fun d => d.writeObj ses seq.toNat 0x3400 (b + 1) (toLE 4 (2 ^ 31 + cfg.toNat)))

/-- BOND_UP (R394). -/
def execBondUp (b : Fin 16) (s : State) : Host.Outcome State Fault Refusal := s.act (fun d => d.bondUp b)

/-- LANE_LOCK_TIMEOUT (R394). -/
def execLaneLockTimeout (b : Fin 16) (locked : BitVec 8) (s : State) : Host.Outcome State Fault Refusal :=
  s.act (fun d => d.laneLockTimeout b locked.toNat)

/-- MISMATCH_RETRY (R394). -/
def execMismatchRetry (b : Fin 16) (s : State) : Host.Outcome State Fault Refusal := s.act (fun d => d.mismatchRetry b)

/-- HEDGEROW_READ (R397). -/
def execHedgerowRead (b : Fin 16) (pseq : BitVec 12) (tag : BitVec 16) (addr : BitVec 40) (len : BitVec 16) (ctl : Ctl) (s : State) : Host.Outcome State Fault Refusal :=
  s.act (fun d => d.hedgeRead b pseq.toNat tag.toNat addr.toNat len.toNat ctl)

/-- HEDGEROW_WRITE (R397). -/
def execHedgerowWrite (b : Fin 16) (pseq : BitVec 12) (addr : BitVec 40) (bytes : List W8) (ctl : Ctl) (s : State) : Host.Outcome State Fault Refusal :=
  s.act (fun d => d.hedgeWrite b pseq.toNat addr.toNat bytes ctl)

/-- RDATA (R399). -/
def execRdata (b : Fin 16) (pseq : BitVec 12) (tag : BitVec 16) (status : BitVec 8) (bytes : List W8) (ctl : Ctl) (s : State) : Host.Outcome State Fault Refusal :=
  s.act (fun d => d.hedgeRdata b pseq.toNat tag.toNat status.toNat bytes ctl)

/-- WERR (R400). -/
def execWerr (b : Fin 16) (pseq : BitVec 12) (addr : BitVec 40) (ctl : Ctl) (s : State) : Host.Outcome State Fault Refusal :=
  s.act (fun d => d.hedgeWerr b pseq.toNat addr.toNat ctl)

/-- NAK (R393). -/
def execNak (b : Fin 16) (ctl : Ctl) (s : State) : Host.Outcome State Fault Refusal :=
  s.act (fun d => d.bondNaked b ctl)

/-- IDLE (R392). -/
def execIdle (b : Fin 16) (ctl : Ctl) (s : State) : Host.Outcome State Fault Refusal :=
  s.act (fun d => d.bondIdle b ctl)

/-- ALIGN (R389). -/
def execAlign (b : Fin 16) (s : State) : Host.Outcome State Fault Refusal := s.act (fun d => d.bondAlign b)

/-- TRAIN (R394). -/
def execTrain (b : Fin 16) (peer : TrainId) (lanes : Fin 9) (crq crs : BitVec 16) (s : State) :
    Host.Outcome State Fault Refusal :=
  s.act (fun d => d.bondTrained b ⟨peer.num, peer.serial.toNat, lanes, crq.toNat, crs.toNat⟩)

/-- IDLE_SEND (R393). -/
def execIdleSend (b : Fin 16) (s : State) : Host.Outcome State Fault Refusal := s.act (fun d => d.idleSend b)

/-- REPLAY_TIMEOUT (R393). -/
def execReplayTimeout (b : Fin 16) (s : State) : Host.Outcome State Fault Refusal := s.act (fun d => d.replayTimeout b)

/-- HEDGEROW_READ_TIMEOUT (R399). -/
def execHedgerowReadTimeout (b : Fin 16) (tag : BitVec 16) (s : State) : Host.Outcome State Fault Refusal :=
  s.act (fun d => d.hedgeTimeout b tag.toNat)

/-- BOND_DOWN (R401). -/
def execBondDown (b : Fin 16) (s : State) : Host.Outcome State Fault Refusal := s.act (fun d => d.bondDown b)

/-- PCIE_INBOUND_WRITE (R295). -/
def execPcieInboundWrite (bar2 : Bool) (offset : BitVec 36) (tlp : InTlp) (s : State) : Host.Outcome State Fault Refusal :=
  s.act (fun d => d.inboundTlp bar2 offset.toNat tlp.bytes tlp.err)

/-- PCIE_INBOUND_READ (R295). -/
def execPcieInboundRead (bar2 : Bool) (offset : BitVec 36) (len : BitVec 13) (s : State) : Host.Outcome State Fault Refusal :=
  s.act (fun d => d.inboundRead bar2 offset.toNat len.toNat)

/-- PCIE_ATOMICOP (R288). -/
def execPcieAtomicop (op : Fin 3) (size : BitVec 5) (offset : BitVec 36) (x cmp : BitVec 64) (s : State) : Host.Outcome State Fault Refusal :=
  s.act (fun d => d.pcieAtomic op size.toNat offset.toNat x.toNat cmp.toNat)

/-- PCIE_COMPLETION (R405). -/
def execPcieCompletion (tag : Nat) (st : CplStatus) (bytes : List W8) (s : State) : Host.Outcome State Fault Refusal :=
  s.act (fun d => d.pcieCompletion tag st bytes)

/-- PCIE_COMPLETION_TIMEOUT (R405). -/
def execPcieCompletionTimeout (s : State) : Host.Outcome State Fault Refusal := s.act (fun d => d.pcieTimeout)

/-- PCIE_RESET (R407). -/
def execPcieReset (s : State) : Host.Outcome State Fault Refusal := s.act (fun d => d.pcieReset)

/-- MSIX_UNMASK (R406). -/
def execMsixUnmask (v : BitVec 11) (s : State) : Host.Outcome State Fault Refusal :=
  s.act (fun d => d.inboundWrite false (0x1_0000 + 16 * v.toNat + 12) (toLE 4 0))

end Sys2Proof.Machine
end

