-- ==== Sys2Proof/Machine/MemoryCmd.lean ====
section
/-! DEFINITION. Commands of translation invalidation, Loam upkeep and scrubbing (R272, R273, R297, R300, R326-R329, R595). -/

namespace Sys2Proof.Machine

/-- XI_VA (R327). -/
def execXiVa (w : Agent) (q : Fin 4) (part : BitVec 4) (asid : BitVec 12) (vpn : BitVec 36) (s : State) : Host.Outcome State Fault Refusal :=
  s.act (fun d => d.regWrite w (xiAddr q) true (xiWord 1 asid vpn part))

/-- XI_VA_ANY_ASID (R327). -/
def execXiVaAnyAsid (w : Agent) (q : Fin 4) (part : BitVec 4) (vpn : BitVec 36) (s : State) : Host.Outcome State Fault Refusal :=
  s.act (fun d => d.regWrite w (xiAddr q) true (xiWord 2 0 vpn part))

/-- XI_ASID (R327). -/
def execXiAsid (w : Agent) (q : Fin 4) (part : BitVec 4) (asid : BitVec 12) (s : State) : Host.Outcome State Fault Refusal :=
  s.act (fun d => d.regWrite w (xiAddr q) true (xiWord 3 asid 0 part))

/-- XI_PARTITION (R327). -/
def execXiPartition (w : Agent) (q : Fin 4) (part : BitVec 4) (s : State) : Host.Outcome State Fault Refusal :=
  s.act (fun d => d.regWrite w (xiAddr q) true (xiWord 4 0 0 part))

/-- XI_ALL (R327). -/
def execXiAll (w : Agent) (q : Fin 4) (s : State) : Host.Outcome State Fault Refusal :=
  s.act (fun d => d.regWrite w (xiAddr q) true (xiWord 5 0 0 0))

/-- XI_REQ_LOW_HALF (R595). -/
def execXiReqLowHalf (w : Agent) (q : Fin 4) (v : BitVec 32) (s : State) : Host.Outcome State Fault Refusal :=
  s.act (fun d => d.regWrite w (xiAddr q) false v.toNat)

/-- XI_SYNC (R329). -/
def execXiSync (w : Agent) (q : Fin 4) (s : State) : Host.Outcome State Fault Refusal :=
  s.act (fun d => d.xiSyncRead w (xiAddr q + 8))

/-- LOAM_REFRESH (R272). -/
def execLoamRefresh (s : State) : Host.Outcome State Fault Refusal := s.act (fun d => d.loamRefresh)

/-- LOAM_WRITE_QUEUE_DRAIN (R273). -/
def execLoamWriteQueueDrain (s : State) : Host.Outcome State Fault Refusal := s.act (fun d => d.loamDrain)

/-- CORRECTED_WRITEBACK (R297). -/
def execCorrectedWriteback (s : State) : Host.Outcome State Fault Refusal := s.act (fun d => d.writeBack)

/-- PATROL_SCRUB_READ (R300). -/
def execPatrolScrubRead (unit : Fin 12) (s : State) : Host.Outcome State Fault Refusal :=
  s.act (fun d => d.patrolScrub unit)

end Sys2Proof.Machine
end

