-- ==== Sys2Proof/Machine/PinCmd.lean ====
section
/-! DEFINITION. Commands of link, clock and pin moments and furrow deliveries (R377, R393, R408, R428, R429, R510, R564). -/

namespace Sys2Proof.Machine

/-- PCIE_LINK_UP (R408). -/
def execPcieLinkUp (s : State) : Host.Outcome State Fault Refusal := s.act (fun d => d.pcieUp)

/-- REFCLK_LOSS (R510). -/
def execRefclkLoss (s : State) : Host.Outcome State Fault Refusal := s.act (fun d => d.refclkSet false)

/-- REFCLK_RETURN (R510). -/
def execRefclkReturn (s : State) : Host.Outcome State Fault Refusal := s.act (fun d => d.refclkSet true)

/-- PAUSE_TIMER_EXPIRY (R377). DESIGN CHOICE, log entry 4. -/
def execPauseTimerExpiry (p : Fin 16) (prio : Option (Fin 8)) (s : State) : Host.Outcome State Fault Refusal :=
  s.act (fun d => d.pauseExpiry p (prio.map Fin.val))

/-- FRAME_DELIVERY (R429). -/
def execFrameDelivery (g : Fin 8) (s : State) : Host.Outcome State Fault Refusal := s.act (fun d => d.frameDelivery g)

/-- DELIVERY_WRITE_ACK (R428). -/
def execDeliveryWriteAck (g : Fin 8) (s : State) : Host.Outcome State Fault Refusal := s.act (fun d => d.deliveryAck g)

/-- HEDGEROW_DAMAGED_PACKET (R393). -/
def execHedgerowDamagedPacket (b : Fin 16) (s : State) : Host.Outcome State Fault Refusal :=
  s.act (fun d => d.bondNak b)

/-- TAP_LEAVES_TEST_LOGIC_RESET (R564). -/
def execTapLeavesTestLogicReset (s : State) : Host.Outcome State Fault Refusal := s.act (fun d => d.tapLeaves)

end Sys2Proof.Machine
end

