-- ==== Sys2Proof/Machine/PisteCmd.lean ====
section
/-! DEFINITION. Commands of the Piste (R246-R265). -/

namespace Sys2Proof.Machine

/-- PISTE_ADMIT (R249). -/
def execPisteAdmit (ses : Fin 6) (seq : BitVec 32) (e : Fin 4) (slot : Fin 16) (f : BitVec 12) (s : State) : Host.Outcome State Fault Refusal :=
  s.act (fun d => d.writeObj ses seq.toNat 0x5100 (1 + 16 * e + slot) (toLE 4 (2 ^ 31 + f.toNat)))

/-- PISTE_WITHDRAW (R252). -/
def execPisteWithdraw (ses : Fin 6) (seq : BitVec 32) (e : Fin 4) (slot : Fin 16) (s : State) : Host.Outcome State Fault Refusal :=
  s.act (fun d => d.writeObj ses seq.toNat 0x5100 (1 + 16 * e + slot) (toLE 4 0))

/-- PISTE_WITHDRAW_COMPLETE (R252). -/
def execPisteWithdrawComplete (e : Fin 4) (slot : Fin 16) (s : State) : Host.Outcome State Fault Refusal :=
  s.act (fun d => d.pisteWithdrawDone e slot)

/-- PISTE_WINDOW_QUEUE (R254). -/
def execPisteWindowQueue (f : Fin 4096) (s : State) : Host.Outcome State Fault Refusal :=
  s.act (fun d => d.pisteWindow f)

/-- PISTE_DISPATCH (R246). -/
def execPisteDispatch (e : Fin 4) (s : State) : Host.Outcome State Fault Refusal := s.act (fun d => d.pisteDispatch e)

/-- PISTE_COMMIT (R246). -/
def execPisteCommit (e : Fin 4) (s : State) : Host.Outcome State Fault Refusal := s.act (fun d => d.pisteCommit e)

/-- PISTE_RESULT_FETCH (R256). -/
def execPisteResultFetch (e : Fin 4) (s : State) : Host.Outcome State Fault Refusal := s.act (fun d => d.resultFetch e)

/-- EXPRESS_FRAME_SEND (R257). -/
def execExpressFrameSend (p : Fin 16) (s : State) : Host.Outcome State Fault Refusal := s.act (fun d => d.expressSend p)

/-- DEADLINE_MISS (R265). -/
def execDeadlineMiss (e : Fin 4) (s : State) : Host.Outcome State Fault Refusal := s.act (fun d => d.deadlineMiss e)

/-- PISTE_DEADLINE_UNIT_CLAIM (R264). -/
def execPisteDeadlineUnitClaim (ses : Fin 6) (seq : BitVec 32) (e : Fin 4) (u : Fin 8) (s : State) : Host.Outcome State Fault Refusal :=
  s.act (fun d => d.writeObj ses seq.toNat 0x5108 (e + 1) (toLE 1 u))

/-- PISTE_DEADLINE_UNIT_RELEASE (R264). -/
def execPisteDeadlineUnitRelease (ses : Fin 6) (seq : BitVec 32) (e : Fin 4) (s : State) : Host.Outcome State Fault Refusal :=
  s.act (fun d => d.writeObj ses seq.toNat 0x5108 (e + 1) (toLE 1 0xFF))

end Sys2Proof.Machine
end

