-- ==== Sys2Proof/Machine/PortCmd.lean ====
section
/-! DEFINITION. Commands of Ethernet ports and the Almanac (R376-R388). -/

namespace Sys2Proof.Machine

/-- PORT_ENABLE (R376). -/
def execPortEnable (ses : Fin 6) (seq : BitVec 32) (p : Fin 16) (cfg : BitVec 31) (s : State) : Host.Outcome State Fault Refusal :=
  s.act (fun d => d.writeObj ses seq.toNat 0x3010 (p + 1) (toLE 4 (2 ^ 31 + cfg.toNat)))

/-- PORT_DISABLE (R376). -/
def execPortDisable (ses : Fin 6) (seq : BitVec 32) (p : Fin 16) (cfg : BitVec 31) (s : State) : Host.Outcome State Fault Refusal :=
  s.act (fun d => d.writeObj ses seq.toNat 0x3010 (p + 1) (toLE 4 cfg.toNat))

/-- PCS_LOCK (R376). -/
def execPcsLock (p : Fin 16) (s : State) : Host.Outcome State Fault Refusal := s.act (fun d => d.pcsLock p)

/-- HOLD_TIMEOUT (R376). -/
def execHoldTimeout (p : Fin 16) (s : State) : Host.Outcome State Fault Refusal := s.act (fun d => d.holdTimeout p)

/-- LINK_FAULT (R376). -/
def execLinkFault (p : Fin 16) (loc rem : Bool) (s : State) : Host.Outcome State Fault Refusal :=
  s.act (fun d => d.linkFault p loc rem)

/-- PREEMPT_VERIFY (R378). -/
def execPreemptVerify (p : Fin 16) (ok : Bool) (s : State) : Host.Outcome State Fault Refusal :=
  s.act (fun d => d.preemptVerify p ok)

/-- PAUSE_FRAME (R377). -/
def execPauseFrame (p : Fin 16) (quanta : BitVec 16) (s : State) : Host.Outcome State Fault Refusal :=
  s.act (fun d => d.pauseFrame p quanta.toNat)

/-- PFC_FRAME (R377). -/
def execPfcFrame (p : Fin 16) (enable : BitVec 8) (quanta : List W16) (s : State) : Host.Outcome State Fault Refusal :=
  s.act (fun d => d.pfcFrame p enable (quanta.map BitVec.toNat))

/-- LLDP_RECEIVE (R381). -/
def execLldpReceive (p : Fin 16) (bytes : List W8) (s : State) : Host.Outcome State Fault Refusal :=
  s.act (fun d => d.lldpReceive p bytes)

/-- LLDP_TTL_EXPIRE (R381). -/
def execLldpTtlExpire (p : Fin 16) (s : State) : Host.Outcome State Fault Refusal := s.act (fun d => d.lldpExpire p)

/-- ALM_STEP (R385). -/
def execAlmStep (w : Agent) (ofs : BitVec 64) (s : State) : Host.Outcome State Fault Refusal :=
  s.act (fun d => d.regWrite w (almAddr + 0x20) true ofs.toNat)

/-- ALM_SET (R385). -/
def execAlmSet (w : Agent) (sec : BitVec 48) (s : State) : Host.Outcome State Fault Refusal :=
  s.act (fun d => d.regWrite w (almAddr + 0x30) true sec.toNat)

/-- ALM_T0_READ (R385). -/
def execAlmT0Read (w : Agent) (s : State) : Host.Outcome State Fault Refusal := s.act (fun d => d.regRead w almAddr)

/-- CC_COMPARE (R386). -/
def execCcCompare (u : Fin 8) (s : State) : Host.Outcome State Fault Refusal := s.act (fun d => d.ccCompare u)

/-- CC_CAPTURE (R386). -/
def execCcCapture (u : Fin 8) (rising : Bool) (s : State) : Host.Outcome State Fault Refusal :=
  s.act (fun d => d.ccCapture u rising)

/-- PTM_DIALOG (R388). -/
def execPtmDialog (master : BitVec 64) (s : State) : Host.Outcome State Fault Refusal :=
  s.act (fun d => d.ptmDialog master)

end Sys2Proof.Machine
end

