-- ==== Sys2Proof/Machine/PowerCmd.lean ====
section
/-! DEFINITION. Commands of power domains, supplies, clocks and temperature (R305, R510-R527). -/

namespace Sys2Proof.Machine

/-- DEVICE_REQUEST_FALLOW (R520). -/
def execDeviceRequestFallow (ses : Fin 6) (seq : BitVec 32) (s : State) : Host.Outcome State Fault Refusal :=
  s.act (fun d => d.writeObj ses seq.toNat 0x2001 0 [1])

/-- FALLOW_DELAY_EXPIRY (R520). DESIGN CHOICE, log entry 4. -/
def execFallowDelayExpiry (s : State) : Host.Outcome State Fault Refusal := s.act (fun d => d.fallowExpiry)

/-- DEVICE_REQUEST_READY (R520). -/
def execDeviceRequestReady (ses : Fin 6) (seq : BitVec 32) (s : State) : Host.Outcome State Fault Refusal :=
  s.act (fun d => d.writeObj ses seq.toNat 0x2001 0 [2])

/-- DEVICE_REQUEST_RUN_ALL (R520). -/
def execDeviceRequestRunAll (ses : Fin 6) (seq : BitVec 32) (s : State) : Host.Outcome State Fault Refusal :=
  s.act (fun d => d.writeObj ses seq.toNat 0x2001 0 [3])

/-- WAKE_TIMER_EXPIRY (R520). -/
def execWakeTimerExpiry (s : State) : Host.Outcome State Fault Refusal := s.act (fun d => d.wakeExpiry)

/-- DOMAIN_REQUEST_ON (R517). -/
def execDomainRequestOn (ses : Fin 6) (seq : BitVec 32) (pd : Fin 76) (s : State) : Host.Outcome State Fault Refusal :=
  s.act (fun d => d.writeObj ses seq.toNat 0x2010 (pd + 1) [1])

/-- DOMAIN_REQUEST_OFF (R519). -/
def execDomainRequestOff (ses : Fin 6) (seq : BitVec 32) (pd : Fin 76) (s : State) : Host.Outcome State Fault Refusal :=
  s.act (fun d => d.writeObj ses seq.toNat 0x2010 (pd + 1) [0])

/-- DOMAIN_REQUEST_RETENTION (R305). -/
def execDomainRequestRetention (ses : Fin 6) (seq : BitVec 32) (stack : Fin 8) (s : State) : Host.Outcome State Fault Refusal :=
  s.act (fun d => d.writeObj ses seq.toNat 0x2010 (stack + 54) [2])

/-- INRUSH_TURN (R518). -/
def execInrushTurn (s : State) : Host.Outcome State Fault Refusal := s.act (fun d => d.inrushTurn)

/-- PLL_LOCK (R518). DESIGN CHOICE, log entry 4. -/
def execPllLock (pd : Fin 76) (s : State) : Host.Outcome State Fault Refusal := s.act (fun d => d.pllLock pd)

/-- PLL_LOCK_TIMEOUT (R512). -/
def execPllLockTimeout (pd : Fin 76) (s : State) : Host.Outcome State Fault Refusal := s.act (fun d => d.pllTimeout pd)

/-- PLL_LOCK_LOSS (R512). -/
def execPllLockLoss (pd : Fin 76) (s : State) : Host.Outcome State Fault Refusal := s.act (fun d => d.pllLoss pd)

/-- DOMAIN_ON (R518). -/
def execDomainOn (pd : Fin 76) (s : State) : Host.Outcome State Fault Refusal := s.act (fun d => d.domainOn pd)

/-- DOMAIN_OFF_COMPLETE (R519). -/
def execDomainOffComplete (pd : Fin 76) (s : State) : Host.Outcome State Fault Refusal :=
  s.act (fun d => d.domainOff pd)

/-- RETENTION_ENTRY_COMPLETE (R305). -/
def execRetentionEntryComplete (stack : Fin 8) (s : State) : Host.Outcome State Fault Refusal :=
  s.act (fun d => d.retentionEntered (Dev.loamDom stack))

/-- RETENTION_EXIT_COMPLETE (R305). -/
def execRetentionExitComplete (stack : Fin 8) (s : State) : Host.Outcome State Fault Refusal :=
  s.act (fun d => d.retentionExited (Dev.loamDom stack))

/-- RAIL_DROOP (R523). -/
def execRailDroop (pd : Fin 76) (s : State) : Host.Outcome State Fault Refusal := s.act (fun d => d.railFault pd 1)

/-- RAIL_FLOOR (R523). -/
def execRailFloor (pd : Fin 76) (s : State) : Host.Outcome State Fault Refusal := s.act (fun d => d.railFault pd 2)

/-- DROOP_RIDE_THROUGH (R523). -/
def execDroopRideThrough (pd : Fin 76) (s : State) : Host.Outcome State Fault Refusal :=
  s.act (fun d => d.rideThrough pd)

/-- VDD_CORE_COLLAPSE (R523). -/
def execVddCoreCollapse (s : State) : Host.Outcome State Fault Refusal := s.act (fun d => d.coreCollapse)

/-- VDD_HL_FAULT (R523). -/
def execVddHlFault (s : State) : Host.Outcome State Fault Refusal := s.act (fun d => d.hlFault)

/-- THERMAL_SAMPLE (R525). -/
def execThermalSample (readings : List W16) (s : State) : Host.Outcome State Fault Refusal :=
  s.act (fun d => d.thermalSample readings)

/-- THROTTLE_STEP_UP (R526). -/
def execThrottleStepUp (s : State) : Host.Outcome State Fault Refusal := s.act (fun d => d.throttleUp)

/-- THROTTLE_STEP_DOWN (R526). -/
def execThrottleStepDown (s : State) : Host.Outcome State Fault Refusal := s.act (fun d => d.throttleDown)

/-- THERMAL_TRIP (R527). -/
def execThermalTrip (s : State) : Host.Outcome State Fault Refusal := s.act (fun d => d.thermalTrip)

/-- XIN32K_LOSS (R511). -/
def execXin32kLoss (s : State) : Host.Outcome State Fault Refusal := s.act (fun d => d.crystalSet false)

/-- XIN32K_RETURN (R511). -/
def execXin32kReturn (s : State) : Host.Outcome State Fault Refusal := s.act (fun d => d.crystalSet true)

end Sys2Proof.Machine
end

