-- ==== Sys2Proof/Machine/ResetCmd.lean ====
section
/-! DEFINITION. Commands of watchdog, resets, straps, self-test, GPIO (R528-R545, R575-R582). -/

namespace Sys2Proof.Machine

/-- WATCHDOG_CONFIGURE (R528). -/
def execWatchdogConfigure (ses : Fin 6) (seq v : BitVec 32) (s : State) : Host.Outcome State Fault Refusal :=
  s.act (fun d => d.writeObj ses seq.toNat 0x2040 0 (toLE 4 v.toNat))

/-- WATCHDOG_KICK (R528). -/
def execWatchdogKick (ses : Fin 6) (seq : BitVec 32) (s : State) : Host.Outcome State Fault Refusal :=
  s.act (fun d => d.writeObj ses seq.toNat 0x2041 0 (toLE 4 0xA5C3))

/-- WATCHDOG_PRETIMEOUT (R529). -/
def execWatchdogPretimeout (s : State) : Host.Outcome State Fault Refusal := s.act (fun d => d.watchdogWarn)

/-- WATCHDOG_EXPIRY (R529). -/
def execWatchdogExpiry (s : State) : Host.Outcome State Fault Refusal := s.act (fun d => d.watchdogExpire)

/-- RESET_REQUEST (R530). -/
def execResetRequest (ses : Fin 6) (seq : BitVec 32) (s : State) : Host.Outcome State Fault Refusal :=
  s.act (fun d => d.writeObj ses seq.toNat 0x2030 0 [1])

/-- RST_REQ_PULSE_END (R530). -/
def execRstReqPulseEnd (s : State) : Host.Outcome State Fault Refusal := s.act (fun d => d.rstPulseEnd)

/-- RST_REQ_UNANSWERED (R530). -/
def execRstReqUnanswered (s : State) : Host.Outcome State Fault Refusal := s.act (fun d => d.rstUnanswered)

/-- RESET_N_ASSERT (R532). -/
def execResetNAssert (ns : Nat) (s : State) : Host.Outcome State Fault Refusal := s.act (fun d => d.resetAssert ns)

/-- RESET_N_RELEASE (R531). -/
def execResetNRelease (s : State) : Host.Outcome State Fault Refusal := s.act (fun d => d.resetRelease)

/-- POR_ASSERT (R534). -/
def execPorAssert (s : State) : Host.Outcome State Fault Refusal := s.act (fun d => d.porAssert)

/-- POR_RELEASE (R581). -/
def execPorRelease (s : State) : Host.Outcome State Fault Refusal := s.act (fun d => d.porRelease)

/-- STRAP_SAMPLE (R536). -/
def execStrapSample (boot clksel : BitVec 2) (lbist dbgOff : Bool) (mbId : BitVec 5) (s : State) : Host.Outcome State Fault Refusal :=
  s.act (fun d => d.strapSample boot clksel lbist dbgOff mbId)

/-- STARTUP_RAIL_CHECK (R582). -/
def execStartupRailCheck (s : State) : Host.Outcome State Fault Refusal := s.act (fun d => d.railCheck)

/-- STARTUP_TEMP_CHECK (R527). -/
def execStartupTempCheck (s : State) : Host.Outcome State Fault Refusal := s.act (fun d => d.tempCheck)

/-- LOGIC_SELF_TEST_GROUP (R542). -/
def execLogicSelfTestGroup (pass : Bool) (s : State) : Host.Outcome State Fault Refusal :=
  s.act (fun d => d.logicGroup pass)

/-- MEMORY_SELF_TEST (R543). -/
def execMemorySelfTest (unit : BitVec 16) (spares : List (BitVec 8 × BitVec 8)) (ok : Bool) (s : State) : Host.Outcome State Fault Refusal :=
  s.act (fun d => d.memoryTest unit.toNat (spares.map (fun p => (p.1.toNat, p.2.toNat))) ok)

/-- LANE_LOOPBACK (R544). -/
def execLaneLoopback (failed : BitVec 32) (s : State) : Host.Outcome State Fault Refusal :=
  s.act (fun d => d.laneLoopback failed)

/-- STARTUP_END (R514). -/
def execStartupEnd (s : State) : Host.Outcome State Fault Refusal := s.act (fun d => d.startupEnd)

/-- GPIO_CONFIGURE (R575). -/
def execGpioConfigure (ses : Fin 6) (seq : BitVec 32) (ball : Fin 32) (v : BitVec 16) (s : State) : Host.Outcome State Fault Refusal :=
  s.act (fun d => d.writeObj ses seq.toNat 0xA000 (ball + 1) (toLE 2 v.toNat))

end Sys2Proof.Machine
end

