-- ==== Sys2Proof/Machine/SeedCmd.lean ====
section
/-! DEFINITION. Commands of seeds, strips, store buffers and parked instructions, gleaning (R66-R88, R153-R159, R203-R232). -/

namespace Sys2Proof.Machine

/-- SEED_PAUSE (R88). -/
def execSeedPause (t : Fin 96) (s : State) : Host.Outcome State Fault Refusal := s.act (fun d => d.seedCmdStart t false)

/-- SEED_CANCEL (R88). -/
def execSeedCancel (t : Fin 96) (s : State) : Host.Outcome State Fault Refusal := s.act (fun d => d.seedCmdStart t true)

/-- SEEDCTL_COMMAND_DONE (R203). -/
def execSeedctlCommandDone (t : Fin 96) (s : State) : Host.Outcome State Fault Refusal :=
  s.act (fun d => d.seedCmdDone t)

/-- STX_ENTRY_SEND (R154). -/
def execStxEntrySend (t : Fin 96) (k : Fin 4) (s : State) : Host.Outcome State Fault Refusal :=
  s.act (fun d => d.stxSend t k)

/-- STX_ACK (R154). -/
def execStxAck (t : Fin 96) (k : Fin 4) (i : Fin 16) (s : State) : Host.Outcome State Fault Refusal :=
  s.act (fun d => d.stxAck t k i)

/-- LDX_DATA_RETURN (R153). -/
def execLdxDataReturn (t : Fin 96) (k : Fin 4) (s : State) : Host.Outcome State Fault Refusal :=
  s.act (fun d => d.ldxReturn t k)

/-- SOW_DESCRIPTOR_RETURN (R66). -/
def execSowDescriptorReturn (t : Fin 96) (k : Fin 4) (s : State) : Host.Outcome State Fault Refusal :=
  s.act (fun d => d.sowReturn t k)

/-- CHAIN_BREAK_TIMEOUT (R81). -/
def execChainBreakTimeout (t : Fin 96) (k : Fin 4) (s : State) : Host.Outcome State Fault Refusal :=
  s.act (fun d => d.chainBreakTimeout t k)

/-- STRIP_START (R159). -/
def execStripStart (t : Fin 96) (s : State) : Host.Outcome State Fault Refusal := s.act (fun d => d.stripStart t)

/-- STRIP_END (R221). DESIGN CHOICE, log entry 4. -/
def execStripEnd (t : Fin 96) (k : Fin 4) (slot : Fin 8) (strip : Nat) (pass2 : Bool) (s : State) : Host.Outcome State Fault Refusal :=
  s.act (fun d => d.stripEnd t k slot strip pass2)

/-- STRIP_FAULT_REPORT (R226). -/
def execStripFaultReport (t : Fin 96) (k : Fin 4) (slot : Fin 8) (strip : Nat) (pass2 : Bool) (s : State) : Host.Outcome State Fault Refusal :=
  s.act (fun d => d.stripFaultReport t k slot strip pass2)

/-- STRIP_PARTIAL_ARRIVE (R223). -/
def execStripPartialArrive (t : Fin 96) (k : Fin 4) (slot : Fin 8) (strip : Nat) (s : State) : Host.Outcome State Fault Refusal :=
  s.act (fun d => d.stripPartialArrive t k slot strip)

/-- COMBINE_OP_DONE (R223). -/
def execCombineOpDone (t : Fin 96) (k : Fin 4) (slot : Fin 8) (s : State) : Host.Outcome State Fault Refusal :=
  s.act (fun d => d.combineOpDone t k slot)

/-- SEED_END (R83). -/
def execSeedEnd (t : Fin 96) (k : Fin 4) (slot : Fin 8) (s : State) : Host.Outcome State Fault Refusal :=
  s.act (fun d => d.seedEnd t k slot)

/-- SEED_WRITEBACK_ACK (R83). -/
def execSeedWritebackAck (t : Fin 96) (k : Fin 4) (slot : Fin 8) (s : State) : Host.Outcome State Fault Refusal :=
  s.act (fun d => d.seedWritebackAck t k slot)

/-- GLEAN_REQUEST (R213). -/
def execGleanRequest (t : Fin 96) (s : State) : Host.Outcome State Fault Refusal := s.act (fun d => d.gleanRequest t)

/-- GLEAN_GRANT (R214). -/
def execGleanGrant (q : Fin 4) (s : State) : Host.Outcome State Fault Refusal := s.act (fun d => d.gleanGrant q)

end Sys2Proof.Machine
end

