-- ==== Sys2Proof/Machine/ThreadCmd.lean ====
section
/-! DEFINITION. Commands of the instructions of a sequencer thread (R172-R206): each command is the issue of its word by thread `k` of tiller `t`. -/

namespace Sys2Proof.Machine

/-- MOV (R182). DESIGN CHOICE, log entry 6. -/
def execMov (t : Fin 96) (k : Fin 4) (a b : BitVec 5) (s : State) : Host.Outcome State Fault Refusal :=
  s.act (fun d => d.seqStep t k (.mov a b))

/-- ADD (R182). -/
def execAdd (t : Fin 96) (k : Fin 4) (a b : BitVec 5) (s : State) : Host.Outcome State Fault Refusal :=
  s.act (fun d => d.seqStep t k (.add a b))

/-- SUB (R182). -/
def execSub (t : Fin 96) (k : Fin 4) (a b : BitVec 5) (s : State) : Host.Outcome State Fault Refusal :=
  s.act (fun d => d.seqStep t k (.sub a b))

/-- CMP (R182). -/
def execCmp (t : Fin 96) (k : Fin 4) (a b : BitVec 5) (s : State) : Host.Outcome State Fault Refusal :=
  s.act (fun d => d.seqStep t k (.cmp a b))

/-- ADDI (R182). -/
def execAddi (t : Fin 96) (k : Fin 4) (a imm : BitVec 5) (s : State) : Host.Outcome State Fault Refusal :=
  s.act (fun d => d.seqStep t k (.addi a imm))

/-- MOVI (R182). -/
def execMovi (t : Fin 96) (k : Fin 4) (a imm : BitVec 5) (s : State) : Host.Outcome State Fault Refusal :=
  s.act (fun d => d.seqStep t k (.movi a imm))

/-- AND (R182). -/
def execAnd (t : Fin 96) (k : Fin 4) (a : BitVec 4) (b : BitVec 3) (s : State) : Host.Outcome State Fault Refusal :=
  s.act (fun d => d.seqStep t k (.and a b))

/-- OR (R182). -/
def execOr (t : Fin 96) (k : Fin 4) (a : BitVec 4) (b : BitVec 3) (s : State) : Host.Outcome State Fault Refusal :=
  s.act (fun d => d.seqStep t k (.or a b))

/-- XOR (R182). -/
def execXor (t : Fin 96) (k : Fin 4) (a : BitVec 4) (b : BitVec 3) (s : State) : Host.Outcome State Fault Refusal :=
  s.act (fun d => d.seqStep t k (.xor a b))

/-- ANDN (R182). -/
def execAndn (t : Fin 96) (k : Fin 4) (a : BitVec 4) (b : BitVec 3) (s : State) : Host.Outcome State Fault Refusal :=
  s.act (fun d => d.seqStep t k (.andn a b))

/-- ADC (R182). -/
def execAdc (t : Fin 96) (k : Fin 4) (a : BitVec 4) (b : BitVec 3) (s : State) : Host.Outcome State Fault Refusal :=
  s.act (fun d => d.seqStep t k (.adc a b))

/-- SBC (R182). -/
def execSbc (t : Fin 96) (k : Fin 4) (a : BitVec 4) (b : BitVec 3) (s : State) : Host.Outcome State Fault Refusal :=
  s.act (fun d => d.seqStep t k (.sbc a b))

/-- MULW (R184). -/
def execMulw (t : Fin 96) (k : Fin 4) (a : BitVec 4) (b : BitVec 3) (s : State) : Host.Outcome State Fault Refusal :=
  s.act (fun d => d.seqStep t k (.mulw a b))

/-- MULWU (R184). -/
def execMulwu (t : Fin 96) (k : Fin 4) (a : BitVec 4) (b : BitVec 3) (s : State) : Host.Outcome State Fault Refusal :=
  s.act (fun d => d.seqStep t k (.mulwu a b))

/-- SHL (R183). -/
def execShl (t : Fin 96) (k : Fin 4) (a : BitVec 4) (b : BitVec 3) (s : State) : Host.Outcome State Fault Refusal :=
  s.act (fun d => d.seqStep t k (.shl a b))

/-- SHR (R183). -/
def execShr (t : Fin 96) (k : Fin 4) (a : BitVec 4) (b : BitVec 3) (s : State) : Host.Outcome State Fault Refusal :=
  s.act (fun d => d.seqStep t k (.shr a b))

/-- SAR (R183). -/
def execSar (t : Fin 96) (k : Fin 4) (a : BitVec 4) (b : BitVec 3) (s : State) : Host.Outcome State Fault Refusal :=
  s.act (fun d => d.seqStep t k (.sar a b))

/-- ROL (R183). -/
def execRol (t : Fin 96) (k : Fin 4) (a : BitVec 4) (b : BitVec 3) (s : State) : Host.Outcome State Fault Refusal :=
  s.act (fun d => d.seqStep t k (.rol a b))

/-- DIV (R185). -/
def execDiv (t : Fin 96) (k : Fin 4) (a : BitVec 4) (b : BitVec 3) (s : State) : Host.Outcome State Fault Refusal :=
  s.act (fun d => d.seqStep t k (.div a b))

/-- DIVU (R185). -/
def execDivu (t : Fin 96) (k : Fin 4) (a : BitVec 4) (b : BitVec 3) (s : State) : Host.Outcome State Fault Refusal :=
  s.act (fun d => d.seqStep t k (.divu a b))

/-- NOT (R182). -/
def execNot (t : Fin 96) (k : Fin 4) (a : BitVec 5) (s : State) : Host.Outcome State Fault Refusal :=
  s.act (fun d => d.seqStep t k (.not a))

/-- NEG (R182). -/
def execNeg (t : Fin 96) (k : Fin 4) (a : BitVec 5) (s : State) : Host.Outcome State Fault Refusal :=
  s.act (fun d => d.seqStep t k (.neg a))

/-- PAR (R182). -/
def execPar (t : Fin 96) (k : Fin 4) (a : BitVec 5) (s : State) : Host.Outcome State Fault Refusal :=
  s.act (fun d => d.seqStep t k (.par a))

/-- BREV (R182). -/
def execBrev (t : Fin 96) (k : Fin 4) (a : BitVec 5) (s : State) : Host.Outcome State Fault Refusal :=
  s.act (fun d => d.seqStep t k (.brev a))

/-- SEXT8 (R182). -/
def execSext8 (t : Fin 96) (k : Fin 4) (a : BitVec 5) (s : State) : Host.Outcome State Fault Refusal :=
  s.act (fun d => d.seqStep t k (.sext8 a))

/-- SEXT16 (R182). -/
def execSext16 (t : Fin 96) (k : Fin 4) (a : BitVec 5) (s : State) : Host.Outcome State Fault Refusal :=
  s.act (fun d => d.seqStep t k (.sext16 a))

/-- ZEXT8 (R182). -/
def execZext8 (t : Fin 96) (k : Fin 4) (a : BitVec 5) (s : State) : Host.Outcome State Fault Refusal :=
  s.act (fun d => d.seqStep t k (.zext8 a))

/-- ZEXT16 (R182). -/
def execZext16 (t : Fin 96) (k : Fin 4) (a : BitVec 5) (s : State) : Host.Outcome State Fault Refusal :=
  s.act (fun d => d.seqStep t k (.zext16 a))

/-- EXT (R177). -/
def execExt (t : Fin 96) (k : Fin 4) (imm : BitVec 10) (s : State) : Host.Outcome State Fault Refusal :=
  s.act (fun d => d.seqStep t k (.ext imm))

/-- LD (R149). -/
def execLd (t : Fin 96) (k : Fin 4) (size : BitVec 2) (a : BitVec 4) (b : BitVec 3) (s : State) : Host.Outcome State Fault Refusal :=
  s.act (fun d => d.seqStep t k (.ld size a b))

/-- ST (R149). -/
def execSt (t : Fin 96) (k : Fin 4) (size : BitVec 2) (a : BitVec 4) (b : BitVec 3) (s : State) : Host.Outcome State Fault Refusal :=
  s.act (fun d => d.seqStep t k (.st size a b))

/-- LDX (R153). -/
def execLdx (t : Fin 96) (k : Fin 4) (size : BitVec 2) (a : BitVec 4) (b : BitVec 3) (s : State) : Host.Outcome State Fault Refusal :=
  s.act (fun d => d.seqStep t k (.ldx size a b))

/-- STX (R154). -/
def execStx (t : Fin 96) (k : Fin 4) (size : BitVec 2) (a : BitVec 4) (b : BitVec 3) (s : State) : Host.Outcome State Fault Refusal :=
  s.act (fun d => d.seqStep t k (.stx size a b))

/-- LDH (R189). -/
def execLdh (t : Fin 96) (k : Fin 4) (a : BitVec 4) (b : BitVec 3) (s : State) : Host.Outcome State Fault Refusal :=
  s.act (fun d => d.seqStep t k (.ldh a b))

/-- STH (R189). -/
def execSth (t : Fin 96) (k : Fin 4) (a : BitVec 4) (b : BitVec 3) (s : State) : Host.Outcome State Fault Refusal :=
  s.act (fun d => d.seqStep t k (.sth a b))

/-- LDHW (R189). -/
def execLdhw (t : Fin 96) (k : Fin 4) (a : BitVec 4) (b : BitVec 3) (s : State) : Host.Outcome State Fault Refusal :=
  s.act (fun d => d.seqStep t k (.ldhw a b))

/-- STHW (R189). -/
def execSthw (t : Fin 96) (k : Fin 4) (a : BitVec 4) (b : BitVec 3) (s : State) : Host.Outcome State Fault Refusal :=
  s.act (fun d => d.seqStep t k (.sthw a b))

/-- PMW (R189). -/
def execPmw (t : Fin 96) (k : Fin 4) (a : BitVec 4) (b : BitVec 3) (s : State) : Host.Outcome State Fault Refusal :=
  s.act (fun d => d.seqStep t k (.pmw a b))

/-- SOW (R66). -/
def execSow (t : Fin 96) (k : Fin 4) (a : BitVec 4) (b : BitVec 3) (s : State) : Host.Outcome State Fault Refusal :=
  s.act (fun d => d.seqStep t k (.sow a b))

/-- TOW (R78). -/
def execTow (t : Fin 96) (k : Fin 4) (a : BitVec 4) (b : BitVec 3) (s : State) : Host.Outcome State Fault Refusal :=
  s.act (fun d => d.seqStep t k (.tow a b))

/-- WAIT (R140). -/
def execWait (t : Fin 96) (k : Fin 4) (a : BitVec 5) (s : State) : Host.Outcome State Fault Refusal :=
  s.act (fun d => d.seqStep t k (.wait a))

/-- CRC8 (R192). -/
def execCrc8 (t : Fin 96) (k : Fin 4) (a : BitVec 5) (s : State) : Host.Outcome State Fault Refusal :=
  s.act (fun d => d.seqStep t k (.crc8 a))

/-- CRCW (R192). -/
def execCrcw (t : Fin 96) (k : Fin 4) (a : BitVec 5) (s : State) : Host.Outcome State Fault Refusal :=
  s.act (fun d => d.seqStep t k (.crcw a))

/-- CRCB (R193). DESIGN CHOICE, log entry 39. -/
def execCrcb (t : Fin 96) (k : Fin 4) (a : BitVec 5) (cut : Option Nat) (s : State) : Host.Outcome State Fault Refusal :=
  s.act (fun d => d.crcbStep t k a cut)

/-- BCC (R195). -/
def execBcc (t : Fin 96) (k : Fin 4) (cond : BitVec 4) (off : BitVec 5) (s : State) : Host.Outcome State Fault Refusal :=
  s.act (fun d => d.seqStep t k (.bcc cond off))

/-- DBNZ (R195). -/
def execDbnz (t : Fin 96) (k : Fin 4) (a : BitVec 4) (off : BitVec 5) (s : State) : Host.Outcome State Fault Refusal :=
  s.act (fun d => d.seqStep t k (.dbnz a off))

/-- JMP (R195). -/
def execJmp (t : Fin 96) (k : Fin 4) (off : BitVec 9) (s : State) : Host.Outcome State Fault Refusal :=
  s.act (fun d => d.seqStep t k (.jmp off))

/-- CALL (R195). -/
def execCall (t : Fin 96) (k : Fin 4) (off : BitVec 9) (s : State) : Host.Outcome State Fault Refusal :=
  s.act (fun d => d.seqStep t k (.call off))

/-- JR (R195). -/
def execJr (t : Fin 96) (k : Fin 4) (a : BitVec 5) (s : State) : Host.Outcome State Fault Refusal :=
  s.act (fun d => d.seqStep t k (.jr a))

/-- CALLR (R195). -/
def execCallr (t : Fin 96) (k : Fin 4) (a : BitVec 5) (s : State) : Host.Outcome State Fault Refusal :=
  s.act (fun d => d.seqStep t k (.callr a))

/-- SVC (R196). -/
def execSvc (t : Fin 96) (k : Fin 4) (a : BitVec 5) (s : State) : Host.Outcome State Fault Refusal :=
  s.act (fun d => d.seqStep t k (.svc a))

/-- RTE (R352). -/
def execRte (t : Fin 96) (k : Fin 4) (a : BitVec 5) (s : State) : Host.Outcome State Fault Refusal :=
  s.act (fun d => d.seqStep t k (.rte a))

/-- PSYNC (R196). -/
def execPsync (t : Fin 96) (k : Fin 4) (a : BitVec 5) (s : State) : Host.Outcome State Fault Refusal :=
  s.act (fun d => d.seqStep t k (.psync a))

/-- FENCE (R293). -/
def execFence (t : Fin 96) (k : Fin 4) (a : BitVec 5) (s : State) : Host.Outcome State Fault Refusal :=
  s.act (fun d => d.seqStep t k (.fence a))

/-- CLAIM (R366). -/
def execClaim (t : Fin 96) (k : Fin 4) (a : BitVec 5) (s : State) : Host.Outcome State Fault Refusal :=
  s.act (fun d => d.seqStep t k (.claim a))

/-- MFS (R199). -/
def execMfs (t : Fin 96) (k : Fin 4) (a : BitVec 4) (sr : BitVec 5) (s : State) : Host.Outcome State Fault Refusal :=
  s.act (fun d => d.seqStep t k (.mfs a sr))

/-- MTS (R199). -/
def execMts (t : Fin 96) (k : Fin 4) (a : BitVec 4) (sr : BitVec 5) (s : State) : Host.Outcome State Fault Refusal :=
  s.act (fun d => d.seqStep t k (.mts a sr))

end Sys2Proof.Machine
end

