-- ==== Sys2Proof/Machine/Dispatch.lean ====
section
/-! DEFINITION. One arm per command. -/

namespace Sys2Proof.Machine

def exec (i : Instr) (s : State) : Host.Outcome State Fault Refusal :=
  match i with
  | .mov t k a b => Sys2Proof.Machine.execMov t k a b s
  | .add t k a b => Sys2Proof.Machine.execAdd t k a b s
  | .sub t k a b => Sys2Proof.Machine.execSub t k a b s
  | .cmp t k a b => Sys2Proof.Machine.execCmp t k a b s
  | .addi t k a imm => Sys2Proof.Machine.execAddi t k a imm s
  | .movi t k a imm => Sys2Proof.Machine.execMovi t k a imm s
  | .and t k a b => Sys2Proof.Machine.execAnd t k a b s
  | .or t k a b => Sys2Proof.Machine.execOr t k a b s
  | .xor t k a b => Sys2Proof.Machine.execXor t k a b s
  | .andn t k a b => Sys2Proof.Machine.execAndn t k a b s
  | .adc t k a b => Sys2Proof.Machine.execAdc t k a b s
  | .sbc t k a b => Sys2Proof.Machine.execSbc t k a b s
  | .mulw t k a b => Sys2Proof.Machine.execMulw t k a b s
  | .mulwu t k a b => Sys2Proof.Machine.execMulwu t k a b s
  | .shl t k a b => Sys2Proof.Machine.execShl t k a b s
  | .shr t k a b => Sys2Proof.Machine.execShr t k a b s
  | .sar t k a b => Sys2Proof.Machine.execSar t k a b s
  | .rol t k a b => Sys2Proof.Machine.execRol t k a b s
  | .div t k a b => Sys2Proof.Machine.execDiv t k a b s
  | .divu t k a b => Sys2Proof.Machine.execDivu t k a b s
  | .not t k a => Sys2Proof.Machine.execNot t k a s
  | .neg t k a => Sys2Proof.Machine.execNeg t k a s
  | .par t k a => Sys2Proof.Machine.execPar t k a s
  | .brev t k a => Sys2Proof.Machine.execBrev t k a s
  | .sext8 t k a => Sys2Proof.Machine.execSext8 t k a s
  | .sext16 t k a => Sys2Proof.Machine.execSext16 t k a s
  | .zext8 t k a => Sys2Proof.Machine.execZext8 t k a s
  | .zext16 t k a => Sys2Proof.Machine.execZext16 t k a s
  | .ext t k imm => Sys2Proof.Machine.execExt t k imm s
  | .ld t k size a b => Sys2Proof.Machine.execLd t k size a b s
  | .st t k size a b => Sys2Proof.Machine.execSt t k size a b s
  | .ldx t k size a b => Sys2Proof.Machine.execLdx t k size a b s
  | .stx t k size a b => Sys2Proof.Machine.execStx t k size a b s
  | .ldh t k a b => Sys2Proof.Machine.execLdh t k a b s
  | .sth t k a b => Sys2Proof.Machine.execSth t k a b s
  | .ldhw t k a b => Sys2Proof.Machine.execLdhw t k a b s
  | .sthw t k a b => Sys2Proof.Machine.execSthw t k a b s
  | .pmw t k a b => Sys2Proof.Machine.execPmw t k a b s
  | .sow t k a b => Sys2Proof.Machine.execSow t k a b s
  | .tow t k a b => Sys2Proof.Machine.execTow t k a b s
  | .wait t k a => Sys2Proof.Machine.execWait t k a s
  | .crc8 t k a => Sys2Proof.Machine.execCrc8 t k a s
  | .crcw t k a => Sys2Proof.Machine.execCrcw t k a s
  | .crcb t k a cut => Sys2Proof.Machine.execCrcb t k a cut s
  | .bcc t k cond off => Sys2Proof.Machine.execBcc t k cond off s
  | .dbnz t k a off => Sys2Proof.Machine.execDbnz t k a off s
  | .jmp t k off => Sys2Proof.Machine.execJmp t k off s
  | .call t k off => Sys2Proof.Machine.execCall t k off s
  | .jr t k a => Sys2Proof.Machine.execJr t k a s
  | .callr t k a => Sys2Proof.Machine.execCallr t k a s
  | .svc t k a => Sys2Proof.Machine.execSvc t k a s
  | .rte t k a => Sys2Proof.Machine.execRte t k a s
  | .psync t k a => Sys2Proof.Machine.execPsync t k a s
  | .fence t k a => Sys2Proof.Machine.execFence t k a s
  | .claim t k a => Sys2Proof.Machine.execClaim t k a s
  | .mfs t k a sr => Sys2Proof.Machine.execMfs t k a sr s
  | .mts t k a sr => Sys2Proof.Machine.execMts t k a sr s
  | .seedPause t => Sys2Proof.Machine.execSeedPause t s
  | .seedCancel t => Sys2Proof.Machine.execSeedCancel t s
  | .seedctlCommandDone t => Sys2Proof.Machine.execSeedctlCommandDone t s
  | .stxEntrySend t k => Sys2Proof.Machine.execStxEntrySend t k s
  | .stxAck t k n => Sys2Proof.Machine.execStxAck t k n s
  | .ldxDataReturn t k => Sys2Proof.Machine.execLdxDataReturn t k s
  | .sowDescriptorReturn t k => Sys2Proof.Machine.execSowDescriptorReturn t k s
  | .chainBreakTimeout t k => Sys2Proof.Machine.execChainBreakTimeout t k s
  | .stripStart t => Sys2Proof.Machine.execStripStart t s
  | .stripEnd t k slot strip pass2 => Sys2Proof.Machine.execStripEnd t k slot strip pass2 s
  | .stripFaultReport t k slot strip pass2 => Sys2Proof.Machine.execStripFaultReport t k slot strip pass2 s
  | .stripPartialArrive t k slot strip => Sys2Proof.Machine.execStripPartialArrive t k slot strip s
  | .combineOpDone t k slot => Sys2Proof.Machine.execCombineOpDone t k slot s
  | .seedEnd t k slot => Sys2Proof.Machine.execSeedEnd t k slot s
  | .seedWritebackAck t k slot => Sys2Proof.Machine.execSeedWritebackAck t k slot s
  | .gleanRequest t => Sys2Proof.Machine.execGleanRequest t s
  | .gleanGrant q => Sys2Proof.Machine.execGleanGrant q s
  | .tcStart w t k => Sys2Proof.Machine.execTcStart w t k s
  | .tcStop w t k => Sys2Proof.Machine.execTcStop w t k s
  | .fastEvent t k => Sys2Proof.Machine.execFastEvent t k s
  | .normalEvent t k => Sys2Proof.Machine.execNormalEvent t k s
  | .seedDone t k => Sys2Proof.Machine.execSeedDone t k s
  | .seedFault t k => Sys2Proof.Machine.execSeedFault t k s
  | .asyncStore t k => Sys2Proof.Machine.execAsyncStore t k s
  | .asPop w t k => Sys2Proof.Machine.execAsPop w t k s
  | .evTrig w n => Sys2Proof.Machine.execEvTrig w n s
  | .deliveryCommit n => Sys2Proof.Machine.execDeliveryCommit n s
  | .moderationTimeout n => Sys2Proof.Machine.execModerationTimeout n s
  | .idleStateUpdate t => Sys2Proof.Machine.execIdleStateUpdate t s
  | .deliveryPresent n => Sys2Proof.Machine.execDeliveryPresent n s
  | .deliveryWithdraw n => Sys2Proof.Machine.execDeliveryWithdraw n s
  | .maskWithdraw n => Sys2Proof.Machine.execMaskWithdraw n s
  | .claimDecide t k => Sys2Proof.Machine.execClaimDecide t k s
  | .hostClaim => Sys2Proof.Machine.execHostClaim s
  | .atomExec t k => Sys2Proof.Machine.execAtomExec t k s
  | .walkComplete t k => Sys2Proof.Machine.execWalkComplete t k s
  | .xiVa w q part asid vpn => Sys2Proof.Machine.execXiVa w q part asid vpn s
  | .xiVaAnyAsid w q part vpn => Sys2Proof.Machine.execXiVaAnyAsid w q part vpn s
  | .xiAsid w q part asid => Sys2Proof.Machine.execXiAsid w q part asid s
  | .xiPartition w q part => Sys2Proof.Machine.execXiPartition w q part s
  | .xiAll w q => Sys2Proof.Machine.execXiAll w q s
  | .xiReqLowHalf w q v => Sys2Proof.Machine.execXiReqLowHalf w q v s
  | .xiSync w q => Sys2Proof.Machine.execXiSync w q s
  | .loamRefresh => Sys2Proof.Machine.execLoamRefresh s
  | .loamWriteQueueDrain => Sys2Proof.Machine.execLoamWriteQueueDrain s
  | .correctedWriteback => Sys2Proof.Machine.execCorrectedWriteback s
  | .patrolScrubRead unit => Sys2Proof.Machine.execPatrolScrubRead unit s
  | .pisteAdmit ses seq e slot f => Sys2Proof.Machine.execPisteAdmit ses seq e slot f s
  | .pisteWithdraw ses seq e slot => Sys2Proof.Machine.execPisteWithdraw ses seq e slot s
  | .pisteWithdrawComplete e slot => Sys2Proof.Machine.execPisteWithdrawComplete e slot s
  | .pisteWindowQueue f => Sys2Proof.Machine.execPisteWindowQueue f s
  | .pisteDispatch e => Sys2Proof.Machine.execPisteDispatch e s
  | .pisteCommit e => Sys2Proof.Machine.execPisteCommit e s
  | .pisteResultFetch e => Sys2Proof.Machine.execPisteResultFetch e s
  | .expressFrameSend p => Sys2Proof.Machine.execExpressFrameSend p s
  | .deadlineMiss e => Sys2Proof.Machine.execDeadlineMiss e s
  | .pisteDeadlineUnitClaim ses seq e u => Sys2Proof.Machine.execPisteDeadlineUnitClaim ses seq e u s
  | .pisteDeadlineUnitRelease ses seq e => Sys2Proof.Machine.execPisteDeadlineUnitRelease ses seq e s
  | .frameClassify p bytes fcs tag icv => Sys2Proof.Machine.execFrameClassify p bytes fcs tag icv s
  | .pfcXoffRepeat p => Sys2Proof.Machine.execPfcXoffRepeat p s
  | .windowComplete f => Sys2Proof.Machine.execWindowComplete f s
  | .windowTimeout f => Sys2Proof.Machine.execWindowTimeout f s
  | .frRelWrite w f count => Sys2Proof.Machine.execFrRelWrite w f count s
  | .outputPost w f count => Sys2Proof.Machine.execOutputPost w f count s
  | .outputSend p => Sys2Proof.Machine.execOutputSend p s
  | .furrowEnable ses seq f => Sys2Proof.Machine.execFurrowEnable ses seq f s
  | .furrowDisable ses seq f => Sys2Proof.Machine.execFurrowDisable ses seq f s
  | .furrowDisableComplete f => Sys2Proof.Machine.execFurrowDisableComplete f s
  | .furrowClear ses seq f => Sys2Proof.Machine.execFurrowClear ses seq f s
  | .furrowResync ses seq f => Sys2Proof.Machine.execFurrowResync ses seq f s
  | .furrowTimeoutUnitClaim ses seq g u => Sys2Proof.Machine.execFurrowTimeoutUnitClaim ses seq g u s
  | .furrowTimeoutUnitRelease ses seq g => Sys2Proof.Machine.execFurrowTimeoutUnitRelease ses seq g s
  | .greeting p who key ctr icv pid attempt period => Sys2Proof.Machine.execGreeting p who key ctr icv pid attempt period s
  | .tokenRefill p => Sys2Proof.Machine.execTokenRefill p s
  | .heartbeat p mac key ctr icv pid => Sys2Proof.Machine.execHeartbeat p mac key ctr icv pid s
  | .heartbeatLossCheck => Sys2Proof.Machine.execHeartbeatLossCheck s
  | .partnerAdmit ses seq idx mac p period pid => Sys2Proof.Machine.execPartnerAdmit ses seq idx mac p period pid s
  | .partnerEvict ses seq idx => Sys2Proof.Machine.execPartnerEvict ses seq idx s
  | .greetingQueuePop ses seq v => Sys2Proof.Machine.execGreetingQueuePop ses seq v s
  | .chStart w n c ctrl => Sys2Proof.Machine.execChStart w n c ctrl s
  | .chFetch w n c ctrl => Sys2Proof.Machine.execChFetch w n c ctrl s
  | .chAbort w n c => Sys2Proof.Machine.execChAbort w n c s
  | .abortComplete n => Sys2Proof.Machine.execAbortComplete n s
  | .channelRun n => Sys2Proof.Machine.execChannelRun n s
  | .descriptorEnd n => Sys2Proof.Machine.execDescriptorEnd n s
  | .descriptorLoad n => Sys2Proof.Machine.execDescriptorLoad n s
  | .transferError n => Sys2Proof.Machine.execTransferError n s
  | .lateWriteFailure n => Sys2Proof.Machine.execLateWriteFailure n s
  | .cvuAttach u => Sys2Proof.Machine.execCvuAttach u s
  | .cvInit w u => Sys2Proof.Machine.execCvInit w u s
  | .cvFeed8 w u v => Sys2Proof.Machine.execCvFeed8 w u v s
  | .cvFeed16 w u v => Sys2Proof.Machine.execCvFeed16 w u v s
  | .cvFeed32 w u v => Sys2Proof.Machine.execCvFeed32 w u v s
  | .cvPfx w u v => Sys2Proof.Machine.execCvPfx w u v s
  | .portEnable ses seq p cfg => Sys2Proof.Machine.execPortEnable ses seq p cfg s
  | .portDisable ses seq p cfg => Sys2Proof.Machine.execPortDisable ses seq p cfg s
  | .pcsLock p => Sys2Proof.Machine.execPcsLock p s
  | .holdTimeout p => Sys2Proof.Machine.execHoldTimeout p s
  | .linkFault p loc rem => Sys2Proof.Machine.execLinkFault p loc rem s
  | .preemptVerify p ok => Sys2Proof.Machine.execPreemptVerify p ok s
  | .pauseFrame p quanta => Sys2Proof.Machine.execPauseFrame p quanta s
  | .pfcFrame p enable quanta => Sys2Proof.Machine.execPfcFrame p enable quanta s
  | .lldpReceive p bytes => Sys2Proof.Machine.execLldpReceive p bytes s
  | .lldpTtlExpire p => Sys2Proof.Machine.execLldpTtlExpire p s
  | .almStep w ofs => Sys2Proof.Machine.execAlmStep w ofs s
  | .almSet w sec => Sys2Proof.Machine.execAlmSet w sec s
  | .almT0Read w => Sys2Proof.Machine.execAlmT0Read w s
  | .ccCompare u => Sys2Proof.Machine.execCcCompare u s
  | .ccCapture u rising => Sys2Proof.Machine.execCcCapture u rising s
  | .ptmDialog master => Sys2Proof.Machine.execPtmDialog master s
  | .bondEnable ses seq b cfg => Sys2Proof.Machine.execBondEnable ses seq b cfg s
  | .bondUp b => Sys2Proof.Machine.execBondUp b s
  | .laneLockTimeout b locked => Sys2Proof.Machine.execLaneLockTimeout b locked s
  | .mismatchRetry b => Sys2Proof.Machine.execMismatchRetry b s
  | .hedgerowRead b pseq tag addr len ctl => Sys2Proof.Machine.execHedgerowRead b pseq tag addr len ctl s
  | .hedgerowWrite b pseq addr bytes ctl => Sys2Proof.Machine.execHedgerowWrite b pseq addr bytes ctl s
  | .rdata b pseq tag status bytes ctl => Sys2Proof.Machine.execRdata b pseq tag status bytes ctl s
  | .werr b pseq addr ctl => Sys2Proof.Machine.execWerr b pseq addr ctl s
  | .nak b ctl => Sys2Proof.Machine.execNak b ctl s
  | .idle b ctl => Sys2Proof.Machine.execIdle b ctl s
  | .align b => Sys2Proof.Machine.execAlign b s
  | .train b peer lanes crq crs => Sys2Proof.Machine.execTrain b peer lanes crq crs s
  | .idleSend b => Sys2Proof.Machine.execIdleSend b s
  | .replayTimeout b => Sys2Proof.Machine.execReplayTimeout b s
  | .hedgerowReadTimeout b tag => Sys2Proof.Machine.execHedgerowReadTimeout b tag s
  | .bondDown b => Sys2Proof.Machine.execBondDown b s
  | .pcieInboundWrite bar2 offset tlp => Sys2Proof.Machine.execPcieInboundWrite bar2 offset tlp s
  | .pcieInboundRead bar2 offset len => Sys2Proof.Machine.execPcieInboundRead bar2 offset len s
  | .pcieAtomicop op size offset x cmp => Sys2Proof.Machine.execPcieAtomicop op size offset x cmp s
  | .pcieCompletion tag st bytes => Sys2Proof.Machine.execPcieCompletion tag st bytes s
  | .pcieCompletionTimeout => Sys2Proof.Machine.execPcieCompletionTimeout s
  | .pcieReset => Sys2Proof.Machine.execPcieReset s
  | .msixUnmask v => Sys2Proof.Machine.execMsixUnmask v s
  | .mbGo => Sys2Proof.Machine.execMbGo s
  | .mbRst => Sys2Proof.Machine.execMbRst s
  | .pelzFrame port bytes fcs => Sys2Proof.Machine.execPelzFrame port bytes fcs s
  | .read ses seq index sub len off => Sys2Proof.Machine.execRead ses seq index sub len off s
  | .write ses seq index sub ifver last off val => Sys2Proof.Machine.execWrite ses seq index sub ifver last off val s
  | .writev ses seq val => Sys2Proof.Machine.execWritev ses seq val s
  | .oclaim ses seq index sub ifver lease => Sys2Proof.Machine.execOclaim ses seq index sub ifver lease s
  | .orelease ses seq index sub ifver => Sys2Proof.Machine.execOrelease ses seq index sub ifver s
  | .leaseExpire => Sys2Proof.Machine.execLeaseExpire s
  | .mainHostHeartbeat ses seq v => Sys2Proof.Machine.execMainHostHeartbeat ses seq v s
  | .heartbeatLapse => Sys2Proof.Machine.execHeartbeatLapse s
  | .takeover ses seq => Sys2Proof.Machine.execTakeover ses seq s
  | .handBack ses seq => Sys2Proof.Machine.execHandBack ses seq s
  | .keyWrite ses seq slot what => Sys2Proof.Machine.execKeyWrite ses seq slot what s
  | .sidebandEventClaim ses seq => Sys2Proof.Machine.execSidebandEventClaim ses seq s
  | .mainHostEventClaim ses seq => Sys2Proof.Machine.execMainHostEventClaim ses seq s
  | .accessDataRead ses seq => Sys2Proof.Machine.execAccessDataRead ses seq s
  | .accessDataWrite ses seq v => Sys2Proof.Machine.execAccessDataWrite ses seq v s
  | .accessBlockRead ses seq len off => Sys2Proof.Machine.execAccessBlockRead ses seq len off s
  | .accessBlockWrite ses seq last off val => Sys2Proof.Machine.execAccessBlockWrite ses seq last off val s
  | .resourceClaim ses seq r holder => Sys2Proof.Machine.execResourceClaim ses seq r holder s
  | .resourceRelease ses seq r => Sys2Proof.Machine.execResourceRelease ses seq r s
  | .deviceRequestFallow ses seq => Sys2Proof.Machine.execDeviceRequestFallow ses seq s
  | .fallowDelayExpiry => Sys2Proof.Machine.execFallowDelayExpiry s
  | .deviceRequestReady ses seq => Sys2Proof.Machine.execDeviceRequestReady ses seq s
  | .deviceRequestRunAll ses seq => Sys2Proof.Machine.execDeviceRequestRunAll ses seq s
  | .wakeTimerExpiry => Sys2Proof.Machine.execWakeTimerExpiry s
  | .domainRequestOn ses seq pd => Sys2Proof.Machine.execDomainRequestOn ses seq pd s
  | .domainRequestOff ses seq pd => Sys2Proof.Machine.execDomainRequestOff ses seq pd s
  | .domainRequestRetention ses seq stack => Sys2Proof.Machine.execDomainRequestRetention ses seq stack s
  | .inrushTurn => Sys2Proof.Machine.execInrushTurn s
  | .pllLock pd => Sys2Proof.Machine.execPllLock pd s
  | .pllLockTimeout pd => Sys2Proof.Machine.execPllLockTimeout pd s
  | .pllLockLoss pd => Sys2Proof.Machine.execPllLockLoss pd s
  | .domainOn pd => Sys2Proof.Machine.execDomainOn pd s
  | .domainOffComplete pd => Sys2Proof.Machine.execDomainOffComplete pd s
  | .retentionEntryComplete stack => Sys2Proof.Machine.execRetentionEntryComplete stack s
  | .retentionExitComplete stack => Sys2Proof.Machine.execRetentionExitComplete stack s
  | .railDroop pd => Sys2Proof.Machine.execRailDroop pd s
  | .railFloor pd => Sys2Proof.Machine.execRailFloor pd s
  | .droopRideThrough pd => Sys2Proof.Machine.execDroopRideThrough pd s
  | .vddCoreCollapse => Sys2Proof.Machine.execVddCoreCollapse s
  | .vddHlFault => Sys2Proof.Machine.execVddHlFault s
  | .thermalSample readings => Sys2Proof.Machine.execThermalSample readings s
  | .throttleStepUp => Sys2Proof.Machine.execThrottleStepUp s
  | .throttleStepDown => Sys2Proof.Machine.execThrottleStepDown s
  | .thermalTrip => Sys2Proof.Machine.execThermalTrip s
  | .xin32kLoss => Sys2Proof.Machine.execXin32kLoss s
  | .xin32kReturn => Sys2Proof.Machine.execXin32kReturn s
  | .watchdogConfigure ses seq v => Sys2Proof.Machine.execWatchdogConfigure ses seq v s
  | .watchdogKick ses seq => Sys2Proof.Machine.execWatchdogKick ses seq s
  | .watchdogPretimeout => Sys2Proof.Machine.execWatchdogPretimeout s
  | .watchdogExpiry => Sys2Proof.Machine.execWatchdogExpiry s
  | .resetRequest ses seq => Sys2Proof.Machine.execResetRequest ses seq s
  | .rstReqPulseEnd => Sys2Proof.Machine.execRstReqPulseEnd s
  | .rstReqUnanswered => Sys2Proof.Machine.execRstReqUnanswered s
  | .resetNAssert ns => Sys2Proof.Machine.execResetNAssert ns s
  | .resetNRelease => Sys2Proof.Machine.execResetNRelease s
  | .porAssert => Sys2Proof.Machine.execPorAssert s
  | .porRelease => Sys2Proof.Machine.execPorRelease s
  | .strapSample boot clksel lbist dbgOff mbId => Sys2Proof.Machine.execStrapSample boot clksel lbist dbgOff mbId s
  | .startupRailCheck => Sys2Proof.Machine.execStartupRailCheck s
  | .startupTempCheck => Sys2Proof.Machine.execStartupTempCheck s
  | .logicSelfTestGroup pass => Sys2Proof.Machine.execLogicSelfTestGroup pass s
  | .memorySelfTest unit spares ok => Sys2Proof.Machine.execMemorySelfTest unit spares ok s
  | .laneLoopback failed => Sys2Proof.Machine.execLaneLoopback failed s
  | .startupEnd => Sys2Proof.Machine.execStartupEnd s
  | .gpioConfigure ses seq ball v => Sys2Proof.Machine.execGpioConfigure ses seq ball v s
  | .tapReset => Sys2Proof.Machine.execTapReset s
  | .tapIrUpdate ir => Sys2Proof.Machine.execTapIrUpdate ir s
  | .dbgAccRead space wide addr => Sys2Proof.Machine.execDbgAccRead space wide addr s
  | .dbgAccWrite space wide addr v => Sys2Proof.Machine.execDbgAccWrite space wide addr v s
  | .tdHalt t k => Sys2Proof.Machine.execTdHalt t k s
  | .tdResume t k => Sys2Proof.Machine.execTdResume t k s
  | .tdStep t k => Sys2Proof.Machine.execTdStep t k s
  | .breakpointHit t k => Sys2Proof.Machine.execBreakpointHit t k s
  | .crossTrigger => Sys2Proof.Machine.execCrossTrigger s
  | .tdFeed t k word => Sys2Proof.Machine.execTdFeed t k word s
  | .registerWindowWrite t k file r v => Sys2Proof.Machine.execRegisterWindowWrite t k file r v s
  | .tdPcWrite t k v => Sys2Proof.Machine.execTdPcWrite t k v s
  | .ttPtrWrite t v => Sys2Proof.Machine.execTtPtrWrite t v s
  | .debugLock ses seq => Sys2Proof.Machine.execDebugLock ses seq s
  | .registerWrite target v => Sys2Proof.Machine.execRegisterWrite target v s
  | .pcieLinkUp => Sys2Proof.Machine.execPcieLinkUp s
  | .refclkLoss => Sys2Proof.Machine.execRefclkLoss s
  | .refclkReturn => Sys2Proof.Machine.execRefclkReturn s
  | .pauseTimerExpiry p prio => Sys2Proof.Machine.execPauseTimerExpiry p prio s
  | .frameDelivery g => Sys2Proof.Machine.execFrameDelivery g s
  | .deliveryWriteAck g => Sys2Proof.Machine.execDeliveryWriteAck g s
  | .hedgerowDamagedPacket b => Sys2Proof.Machine.execHedgerowDamagedPacket b s
  | .tapLeavesTestLogicReset => Sys2Proof.Machine.execTapLeavesTestLogicReset s

end Sys2Proof.Machine
end

