-- ==== Sys2Proof/Machine/Tick.lean ====
section
/-! DEFINITION. What passing time does of itself: one Field clock cycle (log entry 2). -/

namespace Sys2Proof.Machine
namespace Dev

/-- Field clock cycles in one hc of 250 ns, at the rated frequency (R1, R510). -/
def fcPerHc : Nat := if Config.speed15 then 375 else 300

/-- Twelfths of a rated fc that one fc lasts: the Field clock runs at 3/4, 1/2 and 1/4 at throttle steps 1,
2 and 3 (R526). DESIGN CHOICE, log entry 2. -/
def fcTwelfths (d : Dev) : Nat := 48 / (4 - d.hl.throttle.toNat)

/-- The Headland's time moves by the length of one fc (R510, R528). DESIGN CHOICE, log entry 2. -/
def hcTick (d : Dev) : Dev :=
  let n := d.hl.hcPhase + d.fcTwelfths
  if d.hl.por then d
  else if n < 12 * fcPerHc then d.setHl (fun h => { h with hcPhase := n })
  else
    let run := d.hl.wdRun && !d.wdFrozen
    d.setHl (fun h => { h with
      hcPhase := n - 12 * fcPerHc, time := h.time + 1, wdLeft := if run then h.wdLeft - 1 else h.wdLeft })

/-- The counters of 0x4213 and 0x4214 (R233): tillers whose pipeline has no strip in progress, and tillers
of which a seed is held back by the lead limit alone. DESIGN CHOICE, log entry 2. -/
def idleCounts (d : Dev) : Dev :=
  (List.range 96).foldl (fun d t =>
    if !d.tillerOn t then d
    else
      let d := if d.inProgress t = 0 then d.bump 0x4213 (t + 1) else d
      if d.seeds.any (fun s => s.tiller == t && d.mayStart s && s.leadStalled) then d.bump 0x4214 (t + 1) else d) d

/-- One fc. The Field clock and what counts it run while PD70 is ON; QUEUED writes that are posted are performed.
DESIGN CHOICE, log entries 2 and 12; DEDUCED, log entry 155. -/
def tick (d : Dev) : Dev :=
  let d := (d.landQueued (fun _ => true)).hcTick.endOp.feedsGo
  if d.domOn 70 then ({ d with fc := d.fc + 1 }).almTick.alignTick.idleCounts else d

end Dev
end Sys2Proof.Machine
end

