-- ==== Sys2Proof/WellFormed.lean ====
section
/-! DEFINITION. Which commands are well-formed: the lengths and ranges that the operands of a command have on
the wire. What a command does is defined for every operand, well-formed or not. -/

namespace Sys2Proof

/-- A list of `lo` to `hi` elements. -/
def Instr.lenIn {α : Type} (l : List α) (lo hi : Nat) : Bool := decide (lo ≤ l.length) && decide (l.length ≤ hi)

/-- The bytes of a Hedgerow packet: 1 to 256, within one block of 256 bytes (R390). -/
def Instr.inBlock (addr n : Nat) : Bool := decide (1 ≤ n) && decide (addr % 256 + n ≤ 256)

/-- A SecTAG: an SCI of 8 bytes, an AN of two bits, a PN of 32 bits (R380). -/
def SecTag.wf (x : SecTag) : Bool := Instr.lenIn x.sci 8 8 && decide (x.an < 4) && decide (x.pn < 2 ^ 32)

/-- The control fields of a Hedgerow unit: an ACK of 12 bits, the credits returned of 8 bits (R390). -/
def Ctl.wf (x : Ctl) : Bool := decide (x.ack < 4096) && decide (x.crq < 256) && decide (x.crs < 256)

/-- A key of 32 bytes, or a role (R479). -/
def KeyOrRole.wf : KeyOrRole → Bool
  | .key bytes => Instr.lenIn bytes 32 32
  | .role _ => true

/-- A command whose operands are as the wire carries them. -/
def Instr.wf : Instr → Bool
  | .mov .. => true
  | .add .. => true
  | .sub .. => true
  | .cmp .. => true
  | .addi .. => true
  | .movi .. => true
  | .and .. => true
  | .or .. => true
  | .xor .. => true
  | .andn .. => true
  | .adc .. => true
  | .sbc .. => true
  | .mulw .. => true
  | .mulwu .. => true
  | .shl .. => true
  | .shr .. => true
  | .sar .. => true
  | .rol .. => true
  | .div .. => true
  | .divu .. => true
  | .not .. => true
  | .neg .. => true
  | .par .. => true
  | .brev .. => true
  | .sext8 .. => true
  | .sext16 .. => true
  | .zext8 .. => true
  | .zext16 .. => true
  | .ext .. => true
  | .ld .. => true
  | .st .. => true
  | .ldx .. => true
  | .stx .. => true
  | .ldh .. => true
  | .sth .. => true
  | .ldhw .. => true
  | .sthw .. => true
  | .pmw .. => true
  | .sow .. => true
  | .tow .. => true
  | .wait .. => true
  | .crc8 .. => true
  | .crcw .. => true
  | .crcb .. => true
  | .bcc .. => true
  | .dbnz .. => true
  | .jmp .. => true
  | .call .. => true
  | .jr .. => true
  | .callr .. => true
  | .svc .. => true
  | .rte .. => true
  | .psync .. => true
  | .fence .. => true
  | .claim .. => true
  | .mfs .. => true
  | .mts .. => true
  | .seedPause .. => true
  | .seedCancel .. => true
  | .seedctlCommandDone .. => true
  | .stxEntrySend .. => true
  | .stxAck .. => true
  | .ldxDataReturn .. => true
  | .sowDescriptorReturn .. => true
  | .chainBreakTimeout .. => true
  | .stripStart .. => true
  | .stripEnd .. => true
  | .stripFaultReport .. => true
  | .stripPartialArrive .. => true
  | .combineOpDone .. => true
  | .seedEnd .. => true
  | .seedWritebackAck .. => true
  | .gleanRequest .. => true
  | .gleanGrant .. => true
  | .tcStart .. => true
  | .tcStop .. => true
  | .fastEvent .. => true
  | .normalEvent .. => true
  | .seedDone .. => true
  | .seedFault .. => true
  | .asyncStore .. => true
  | .asPop .. => true
  | .evTrig .. => true
  | .deliveryCommit .. => true
  | .moderationTimeout .. => true
  | .idleStateUpdate .. => true
  | .deliveryPresent .. => true
  | .deliveryWithdraw .. => true
  | .maskWithdraw .. => true
  | .claimDecide .. => true
  | .atomExec .. => true
  | .walkComplete .. => true
  | .xiVa .. => true
  | .xiVaAnyAsid .. => true
  | .xiAsid .. => true
  | .xiPartition .. => true
  | .xiAll .. => true
  | .xiReqLowHalf .. => true
  | .xiSync .. => true
  | .patrolScrubRead .. => true
  | .pisteAdmit .. => true
  | .pisteWithdraw .. => true
  | .pisteWithdrawComplete .. => true
  | .pisteWindowQueue .. => true
  | .pisteDispatch .. => true
  | .pisteCommit .. => true
  | .pisteResultFetch .. => true
  | .expressFrameSend .. => true
  | .deadlineMiss .. => true
  | .pisteDeadlineUnitClaim .. => true
  | .pisteDeadlineUnitRelease .. => true
  | .frameClassify _ bytes _ tag _ => Instr.lenIn bytes 14 16383 && tag.all SecTag.wf
  | .pfcXoffRepeat .. => true
  | .windowComplete .. => true
  | .windowTimeout .. => true
  | .frRelWrite .. => true
  | .outputPost .. => true
  | .outputSend .. => true
  | .furrowEnable .. => true
  | .furrowDisable .. => true
  | .furrowDisableComplete .. => true
  | .furrowClear .. => true
  | .furrowResync .. => true
  | .furrowTimeoutUnitClaim .. => true
  | .furrowTimeoutUnitRelease .. => true
  | .greeting .. => true
  | .tokenRefill .. => true
  | .heartbeat .. => true
  | .partnerAdmit .. => true
  | .partnerEvict .. => true
  | .greetingQueuePop .. => true
  | .chStart .. => true
  | .chFetch .. => true
  | .chAbort .. => true
  | .abortComplete .. => true
  | .channelRun .. => true
  | .descriptorEnd .. => true
  | .descriptorLoad .. => true
  | .transferError .. => true
  | .lateWriteFailure .. => true
  | .cvuAttach .. => true
  | .cvInit .. => true
  | .cvFeed8 .. => true
  | .cvFeed16 .. => true
  | .cvFeed32 .. => true
  | .cvPfx .. => true
  | .portEnable .. => true
  | .portDisable .. => true
  | .pcsLock .. => true
  | .holdTimeout .. => true
  | .linkFault .. => true
  | .preemptVerify .. => true
  | .pauseFrame .. => true
  | .pfcFrame _ _ quanta => Instr.lenIn quanta 8 8
  | .lldpReceive _ bytes => Instr.lenIn bytes 14 16383
  | .lldpTtlExpire .. => true
  | .almStep .. => true
  | .almSet .. => true
  | .almT0Read .. => true
  | .ccCompare .. => true
  | .ccCapture .. => true
  | .ptmDialog .. => true
  | .bondEnable .. => true
  | .bondUp .. => true
  | .laneLockTimeout .. => true
  | .mismatchRetry .. => true
  | .hedgerowRead _ _ tag addr len ctl => decide (tag.toNat < 4096) && Instr.inBlock addr.toNat len.toNat && ctl.wf
  | .hedgerowWrite _ _ addr bytes ctl => Instr.inBlock addr.toNat bytes.length && ctl.wf
  | .rdata _ _ tag status bytes ctl => decide (tag.toNat < 4096) && decide (status.toNat < 16) && Instr.lenIn bytes 0 256 && ctl.wf
  | .werr _ _ _ ctl => ctl.wf
  | .nak _ ctl => ctl.wf
  | .idle _ ctl => ctl.wf
  | .align .. => true
  | .train .. => true
  | .idleSend .. => true
  | .replayTimeout .. => true
  | .hedgerowReadTimeout .. => true
  | .bondDown .. => true
  | .pcieInboundWrite _ _ tlp => Instr.lenIn tlp.bytes 1 512
  | .pcieInboundRead _ _ len => decide (1 ≤ len.toNat) && decide (len.toNat ≤ 4096)
  | .pcieAtomicop _ size _ _ _ => size == 4 || size == 8 || size == 16
  | .pcieCompletion _ _ bytes => Instr.lenIn bytes 0 4096
  | .msixUnmask .. => true
  | .pelzFrame _ bytes _ => Instr.lenIn bytes 14 16383
  | .read .. => true
  | .write _ _ _ _ _ _ _ val => Instr.lenIn val 0 1024
  | .writev _ _ val => Instr.lenIn val 0 1024
  | .oclaim .. => true
  | .orelease .. => true
  | .mainHostHeartbeat .. => true
  | .takeover .. => true
  | .handBack .. => true
  | .keyWrite _ _ _ what => what.wf
  | .sidebandEventClaim .. => true
  | .mainHostEventClaim .. => true
  | .accessDataRead .. => true
  | .accessDataWrite .. => true
  | .accessBlockRead .. => true
  | .accessBlockWrite _ _ _ _ val => Instr.lenIn val 0 1024
  | .resourceClaim _ _ _ holder => holder != 0
  | .resourceRelease .. => true
  | .deviceRequestFallow .. => true
  | .deviceRequestReady .. => true
  | .deviceRequestRunAll .. => true
  | .domainRequestOn .. => true
  | .domainRequestOff .. => true
  | .domainRequestRetention .. => true
  | .pllLock .. => true
  | .pllLockTimeout .. => true
  | .pllLockLoss .. => true
  | .domainOn .. => true
  | .domainOffComplete .. => true
  | .retentionEntryComplete .. => true
  | .retentionExitComplete .. => true
  | .railDroop .. => true
  | .railFloor .. => true
  | .droopRideThrough .. => true
  | .thermalSample readings => Instr.lenIn readings 17 17
  | .watchdogConfigure .. => true
  | .watchdogKick .. => true
  | .resetRequest .. => true
  | .resetNAssert .. => true
  | .strapSample .. => true
  | .logicSelfTestGroup .. => true
  | .memorySelfTest .. => true
  | .laneLoopback .. => true
  | .gpioConfigure .. => true
  | .tapIrUpdate .. => true
  | .dbgAccRead .. => true
  | .dbgAccWrite .. => true
  | .tdHalt .. => true
  | .tdResume .. => true
  | .tdStep .. => true
  | .breakpointHit .. => true
  | .tdFeed .. => true
  | .registerWindowWrite .. => true
  | .tdPcWrite .. => true
  | .ttPtrWrite .. => true
  | .debugLock .. => true
  | .registerWrite .. => true
  | .pauseTimerExpiry .. => true
  | .frameDelivery .. => true
  | .deliveryWriteAck .. => true
  | .hedgerowDamagedPacket .. => true
  | .hostClaim => true
  | .loamRefresh => true
  | .loamWriteQueueDrain => true
  | .correctedWriteback => true
  | .heartbeatLossCheck => true
  | .pcieCompletionTimeout => true
  | .pcieReset => true
  | .mbGo => true
  | .mbRst => true
  | .leaseExpire => true
  | .heartbeatLapse => true
  | .fallowDelayExpiry => true
  | .wakeTimerExpiry => true
  | .inrushTurn => true
  | .vddCoreCollapse => true
  | .vddHlFault => true
  | .throttleStepUp => true
  | .throttleStepDown => true
  | .thermalTrip => true
  | .xin32kLoss => true
  | .xin32kReturn => true
  | .watchdogPretimeout => true
  | .watchdogExpiry => true
  | .rstReqPulseEnd => true
  | .rstReqUnanswered => true
  | .resetNRelease => true
  | .porAssert => true
  | .porRelease => true
  | .startupRailCheck => true
  | .startupTempCheck => true
  | .startupEnd => true
  | .tapReset => true
  | .crossTrigger => true
  | .pcieLinkUp => true
  | .refclkLoss => true
  | .refclkReturn => true
  | .tapLeavesTestLogicReset => true

end Sys2Proof
end

