-- ==== Sys2Proof/Safety.lean ====
section
/-! DEFINITION. The terms in which statements speak: what a command gives, when a thread can issue, and the
arithmetic of the sequencer in exact integers. -/

namespace Sys2Proof.Machine

/-- Command `c` takes `s` to the state with device `e`; the queue stays as it is. -/
def Gives (c : Instr) (s : State) (e : Dev) : Prop := exec c s = .next { s with dev := e }

/-- Command `c` answers a next state with the same queue, whose device meets `P`. -/
def Does (c : Instr) (s : State) (P : Dev → Prop) : Prop := ∃ e, Gives c s e ∧ P e

/-- The command that issues the word of `op` on thread `k` of tiller `t`. -/
def SeqOp.cmd (t : Fin 96) (k : Fin 4) : SeqOp → Instr
  | .mov a b => .mov t k a b
  | .add a b => .add t k a b
  | .sub a b => .sub t k a b
  | .cmp a b => .cmp t k a b
  | .addi a i => .addi t k a i
  | .movi a i => .movi t k a i
  | .bcc c o => .bcc t k c o
  | .dbnz a o => .dbnz t k a o
  | .not a => .not t k a
  | .neg a => .neg t k a
  | .par a => .par t k a
  | .brev a => .brev t k a
  | .sext8 a => .sext8 t k a
  | .sext16 a => .sext16 t k a
  | .zext8 a => .zext8 t k a
  | .zext16 a => .zext16 t k a
  | .crc8 a => .crc8 t k a
  | .crcw a => .crcw t k a
  | .crcb a => .crcb t k a none
  | .wait a => .wait t k a
  | .claim a => .claim t k a
  | .jr a => .jr t k a
  | .callr a => .callr t k a
  | .svc a => .svc t k a
  | .rte a => .rte t k a
  | .psync a => .psync t k a
  | .fence a => .fence t k a
  | .mfs a s => .mfs t k a s
  | .mts a s => .mts t k a s
  | .and a b => .and t k a b
  | .or a b => .or t k a b
  | .xor a b => .xor t k a b
  | .andn a b => .andn t k a b
  | .adc a b => .adc t k a b
  | .sbc a b => .sbc t k a b
  | .mulw a b => .mulw t k a b
  | .mulwu a b => .mulwu t k a b
  | .shl a b => .shl t k a b
  | .shr a b => .shr t k a b
  | .sar a b => .sar t k a b
  | .rol a b => .rol t k a b
  | .div a b => .div t k a b
  | .divu a b => .divu t k a b
  | .ld s a b => .ld t k s a b
  | .st s a b => .st t k s a b
  | .ldx s a b => .ldx t k s a b
  | .stx s a b => .stx t k s a b
  | .sow a b => .sow t k a b
  | .tow a b => .tow t k a b
  | .ldh a b => .ldh t k a b
  | .sth a b => .sth t k a b
  | .ldhw a b => .ldhw t k a b
  | .sthw a b => .sthw t k a b
  | .pmw a b => .pmw t k a b
  | .jmp o => .jmp t k o
  | .call o => .call t k o
  | .ext i => .ext t k i

/-- Thread `k` of tiller `t` issues the word at its pc: it is READY on a tiller that is ON, no armed
breakpoint stops it, the word passes the parity check, and no halt waits (R139, R147, R148, R554, R555). -/
structure CanIssue (d : Dev) (t : Fin 96) (k : Fin 4) : Prop where
  ready   : (d.thread t k).st = .ready
  on      : d.tillerOn t = true
  noBreak : d.bpHit t k (d.thread t k).pc = false ∨ (d.thread t k).dbg.passBp = true
  parity  : Dev.parityOk (d.wordAt t k (d.thread t k).pc) = true
  noHalt  : (d.thread t k).dbg.haltReq = 0
  notFed  : (d.thread t k).dbg.busy = false

/-- The word is the first of its EXT group: no EXT word waits for it (R177). -/
def NoExt (d : Dev) (t : Fin 96) (k : Fin 4) : Prop := (d.thread t k).ext = []

namespace Thread

/-- The sum of `p`, `q` and the carry `i` in register `a`, with C the carry out of bit 31, V signed overflow,
N bit 31 of the result and Z its zero test (R180). -/
def sum (x : Thread) (a : Nat) (p q : W32) (i : Nat) : Thread :=
  let r := BitVec.ofNat 32 (p.toNat + q.toNat + i)
  { x.wr a r with c := decide (2 ^ 32 ≤ p.toNat + q.toNat + i), v := decide (r.toInt ≠ p.toInt + q.toInt + i),
                  n := r.msb, z := decide (r = 0) }

/-- The flags of the difference of `p`, `q` and the borrow `i`: C is 1 when no borrow occurs (R180). -/
def flagsOfDiff (x : Thread) (p q : W32) (i : Nat) : Thread :=
  let r := BitVec.ofInt 32 (p.toInt - q.toInt - i)
  { x with c := decide (q.toNat + i ≤ p.toNat), v := decide (r.toInt ≠ p.toInt - q.toInt - i),
           n := r.msb, z := decide (r = 0) }

/-- The difference in register `a`, with its flags. -/
def diff (x : Thread) (a : Nat) (p q : W32) (i : Nat) : Thread :=
  (x.wr a (BitVec.ofInt 32 (p.toInt - q.toInt - i))).flagsOfDiff p q i

/-- A result in register `a` with Z and N from it; C and V stay (R180). -/
def withZN (x : Thread) (a : Nat) (r : W32) : Thread := { x.wr a r with z := decide (r = 0), n := r.msb }

/-- A 64-bit result in pair `a` with Z and N from it (R180). -/
def withZN64 (x : Thread) (a : Nat) (r : W64) : Thread := { x.wrPair a r with z := decide (r = 0), n := r.msb }

/-- Quotient and remainder in pair `a`, with Z and N from the quotient (R185). -/
def withQuot (x : Thread) (a : Nat) (q r : W32) (v : Bool) : Thread :=
  { (x.wr (2 * a) q).wr (2 * a + 1) r with z := decide (q = 0), n := q.msb, v := v }

end Thread

namespace Dev

/-- The device after thread `k` has issued its word, with `f` applied to the thread. -/
def issuedThen (d : Dev) (t k : Nat) (f : Thread → Thread) : Dev := (d.issued t k).modThread t k f

/-- The device after a taken branch of the word issued: the pc is `p`, and the trace may take a record
(R195, R566). -/
def branched (d : Dev) (t k : Nat) (p : BitVec 14) (f : Thread → Thread) : Dev :=
  (((d.issued t k).modThread t k f).traceRec t k 0 (d.thread t k).pc p).modThread t k
    (fun x => { x with pc := p, pf := [] })

/-- Where thread `k` of tiller `t` finds the handler table entry of vector `vec`, its first word is `w0`, and
the entry may be used (R341, R342). -/
def HasHandler (d : Dev) (t k vec w0 : Nat) : Prop := (d.htEntry t k vec).2 = some w0

/-- An exception of the thread is entered by the normal sequence: no fast handler runs, EPRIV has a free
level, and no tow chain is open (R81, R345, R351). -/
structure CanEnter (d : Dev) (t : Fin 96) (k : Fin 4) : Prop where
  normal  : (d.thread t k).fb = false
  level   : (d.thread t k).depth < 8
  noChain : d.openChain t k = none

/-- What the normal entry leaves in the thread (R347): the saved address, status and cause, a level of EPRIV
with the old privilege, and the handler's pc, privilege, SUA and CT; every register but g30, and the special
registers that no entry writes, stay. -/
structure Entered (d e : Dev) (t k vec info : Nat) (saved : BitVec 14) (w0 : Nat) : Prop where
  epc    : (e.thread t k).epc = saved.setWidth 32
  estat  : (e.thread t k).estat = (d.thread t k).status
  ecause : (e.thread t k).ecause.toNat = vec * 2 ^ 26 + info
  pc     : (e.thread t k).pc = BitVec.ofNat 14 w0
  priv   : (e.thread t k).priv = bitN w0 20
  sua    : (e.thread t k).sua = bitN w0 25
  ct     : (e.thread t k).ct = bitN w0 24
  depth  : (e.thread t k).depth = (d.thread t k).depth + 1
  level  : bitN (e.thread t k).pstk (d.thread t k).depth = (d.thread t k).priv
  ready  : (e.thread t k).st = .ready
  flags  : (e.thread t k).c = (d.thread t k).c ∧ (e.thread t k).z = (d.thread t k).z ∧
           (e.thread t k).n = (d.thread t k).n ∧ (e.thread t k).v = (d.thread t k).v
  regs   : ∀ r : Fin 32, r.val ≠ 30 → (e.thread t k).rd r = (d.thread t k).rd r
  sregs  : (e.thread t k).htbase = (d.thread t k).htbase ∧ (e.thread t k).seedctl = (d.thread t k).seedctl ∧
           (e.thread t k).xctx0 = (d.thread t k).xctx0 ∧ (e.thread t k).xctx1 = (d.thread t k).xctx1 ∧
           (e.thread t k).evcfg = (d.thread t k).evcfg ∧ (e.thread t k).fepc = (d.thread t k).fepc ∧
           (e.thread t k).festat = (d.thread t k).festat ∧ (e.thread t k).fecause = (d.thread t k).fecause ∧
           (e.thread t k).fepriv = (d.thread t k).fepriv

/-- What a normal entry for an event leaves beside that: ECAUSE names the event, and KIND marks the level
(R344, R346, R347). -/
structure EnteredEvent (d e : Dev) (t k vec info : Nat) (saved : BitVec 14) (w0 : Nat) : Prop
    extends Entered d e t k vec info saved w0 where
  kind : bitN (e.thread t k).kind (d.thread t k).depth = true

/-- Byte `a` of the local store of tiller `t`, as a read returns it; `none` in an uncorrectable granule. -/
def lsByte (d : Dev) (t a : Nat) : Option W8 := d.mem.byte? (lsCell t a)

/-- Nothing but thread `k` of tiller `t`, the hoppers and error counts of the tiller, and memory changes. -/
structure OwnOnly (d e : Dev) (t k : Nat) : Prop where
  rest    : e = { d with threads := e.threads, tillers := e.tillers, mem := e.mem }
  threads : ∀ (u : Fin 96) (j : Fin 4), ¬ (u.val = t ∧ j.val = k) → e.thread u j = d.thread u j
  tillers : ∀ u : Fin 96, u.val ≠ t → e.tiller u = d.tiller u
  own     : e.tiller t = { d.tiller t with hop := (e.tiller t).hop, lsCe := (e.tiller t).lsCe, lsUe := (e.tiller t).lsUe }

/-- Every byte of every memory outside the cells `cs` reads as before. -/
def SameMemBut (d e : Dev) (cs : List Nat) : Prop := ∀ c, c ∉ cs → e.mem.byte? c = d.mem.byte? c

end Dev

end Sys2Proof.Machine

namespace Sys2Proof
open Machine

/-! Accesses of device registers by an agent. -/

/-- The agent as the device region tells originators apart. -/
def Agent.orig (d : Dev) : Agent → Orig
  | .thread t k => .thread t k (d.thread t k).priv
  | .host => .host
  | .debug => .debug

/-- The agent's accesses reach the device region with the rights of a master: a thread at S on a tiller that is
ON, the host over a link that is up with the function in D0, the debug path with DBG_ACC selected. -/
def Agent.Reaches (d : Dev) : Agent → Prop
  | .thread t k => d.tillerOn t = true ∧ (d.thread t k).priv = true
  | .host => d.hostReaches = true ∧ d.pcie.d3 = false
  | .debug => d.dbgSelected = true

/-- The agent is the host or the debug path. -/
def Agent.isMaster : Agent → Bool
  | .thread _ _ => false
  | _ => true

/-- The device `e` that an access of the agent has led to from `d`, once the access has ended well: the debug
path captures the end in DBG_ACC (R550). -/
def Agent.ends (w : Agent) (d e : Dev) : Dev :=
  match w with
  | .debug => e.dbgEnd (.ok d.dbg.data.toNat)
  | _ => e

end Sys2Proof

/-! Dictionary requests, domains and objects. -/

namespace Sys2Proof.Machine
namespace Dev

/-- The dictionary core is free, and no request of session `ses` is pending (R493, R494). -/
def CoreFree (d : Dev) (ses : Nat) : Prop := d.dict.busy = none ∧ ∀ w ∈ d.dict.waiting, w.ses ≠ ses

/-- Session `ses` is served, and request `seq` is one that it performs: the core is free, it is not the last one again,
and its number is ahead (R486, R488, R491, R493, R494). -/
structure Serves (d : Dev) (ses : Fin 6) (seq : W32) : Prop where
  up    : d.sessionUp ses = true
  free  : d.CoreFree ses
  fresh : (d.session ses).seq ≠ some seq
  ahead : ∀ k, (d.session ses).seq = some k → (seq - k).toNat ≤ 2 ^ 31

/-- A write of `n` bytes to subentry `s` of object `i` passes the checks of R483 up to TYPE. -/
structure Accepts (d : Dev) (ses : Fin 6) (seq : W32) (i s n : Nat) : Prop extends Serves d ses seq where
  gate : ∃ t c, d.objGate ses i s true false none = .ok (t, c) ∧ t.fits n = true ∧ ∀ m, t ≠ .domain m

/-- Request `seq` of the session has been answered with status `st`, and the answer is held (R481, R493). -/
def Answered (e : Dev) (ses : Fin 6) (seq : W32) (st : Status) : Prop :=
  (e.session ses).seq = some seq ∧ (e.session ses).resp[2]? = some (BitVec.ofNat 8 st.code)

/-- The version of an object rose by one (R475). -/
def Newer (d e : Dev) (i s : Nat) : Prop := e.version i s = (d.version i s + 1) % 2 ^ 16

/-- Every numeric object other than those `p` names holds what it held. -/
def SameObjBut (d e : Dev) (p : Nat → Nat → Prop) : Prop := ∀ i s, s < 256 → ¬ p i s → e.obj i s = d.obj i s

/-- The tillers, their threads, the memories and the domains are as they were. -/
structure SameCore (d e : Dev) : Prop where
  threads : e.threads = d.threads
  tillers : e.tillers = d.tillers
  mem     : e.mem = d.mem
  doms    : e.doms = d.doms

end Dev
end Sys2Proof.Machine

namespace Sys2Proof.Machine
namespace Dev

/-- The device as an operation of session `ses` sees it: the request is counted, and the session stands as `x`. -/
def asked (d : Dev) (ses : Nat) (x : Session) : Dev := (d.countPelz (d.transport ses) 0).setSession ses x

/-- A session with no held segments. -/
def bare (d : Dev) (ses : Nat) : Session := { d.session ses with held := none }

/-- Message `m` is a READ of an object that is no DOMAIN and whose read has no side effect and
holds no level of the board: the session performs it,
and it passes the checks of R483. `t` and `c` are the object's type and class. -/
structure AsksFor (d : Dev) (ses : Nat) (m : Msg) (t : OTy) (c : Acc) : Prop where
  up     : d.sessionUp ses = true
  free   : d.CoreFree ses
  inArea : m.past = false
  does_  : (d.session ses).performs m = true
  op     : m.op = 0x01
  whole  : m.len = 0 ∧ m.off = 0
  gate   : d.objGate ses m.index m.sub false false none = .ok (t, c)
  flat   : ∀ n, t ≠ .domain n
  plain  : m.index ∉ [0x6200, 0x7010, 0x9040, 0xA001]

/-- Session `ses` of `e` holds the answer to a READ `m`: status OK, the object's version, and its value as `d` has it
once the request is counted (R475, R481, R493). -/
def Told (d e : Dev) (ses : Nat) (m : Msg) (t : OTy) (c : Acc) : Prop :=
  (e.session ses).seq = some (BitVec.ofNat 32 m.seq) ∧
  (e.session ses).resp = Resp.encode m
    { status := .ok, ver := d.version m.index m.sub, len := ((d.asked ses (d.session ses)).objBytes t c m.index m.sub).length,
      val := (d.asked ses (d.session ses)).objBytes t c m.index m.sub }

end Dev
end Sys2Proof.Machine

/-! Hedgerow bonds. -/

namespace Sys2Proof.Machine

/-- The control fields `c` acknowledge `k` packets of bond `x` (R393). -/
structure Bond.AckedBy (x : Bond) (c : Ctl) (k : Nat) : Prop where
  old  : x.acked < 4096
  some : k ≤ x.replay.length ∧ k < 4096
  ack  : c.ack = (x.acked + k) % 4096

/-- The bond after `c` has acknowledged `k` packets and returned credits (R392, R393). -/
def Bond.acks (x : Bond) (k : Nat) (c : Ctl) : Bond :=
  { x with replay := x.replay.drop k, acked := c.ack, rounds := if k = 0 then x.rounds else 0,
           crq := x.crq + c.crq, crs := x.crs + c.crs }

/-- The bond after a packet of `units` units, number `seq`, has been taken in order (R392, R393). -/
def Bond.takes (x : Bond) (seq units k : Nat) (c : Ctl) (response : Bool) : Bond :=
  ({ x with rxSeq := seq, nakSent := false, retq := if response then x.retq else x.retq + units,
            rets := if response then x.rets + units else x.rets }).acks k c

/-- Bond `b` of `e` trains anew: its lanes are those configured, nothing is in flight, and its TRAIN unit has gone with
the serial number of this device (R394). -/
structure Dev.Training (e : Dev) (b : Nat) : Prop where
  st    : (e.bond b).st = .training
  lanes : (e.bond b).lanes = 2 ^ fld (e.obj 0x3400 (b + 1)) 30 28
  fresh : (e.bond b).aligned = false ∧ (e.bond b).peer = none ∧ (e.bond b).reads = [] ∧ (e.bond b).replay = [] ∧
          (e.bond b).txq = [] ∧ (e.bond b).rxSeq = 0 ∧ (e.bond b).mixed = false
  ranks : (e.bond b).ranks = Dev.bondLanes b (e.obj 0x3400 (b + 1))
  sent  : ∃ us, Out.train b Config.serial.toNat us ∈ e.out

end Sys2Proof.Machine

/-! Power. -/

namespace Sys2Proof.Machine

/-- Memory cell `c` lies in the memories of power domain `k` (R38). -/
def inDomain (k c : Nat) : Prop :=
  (1 ≤ k ∧ k ≤ 48 ∧ (inTiller (2 * k - 2) c = true ∨ inTiller (2 * k - 1) c = true)) ∨
  (49 ≤ k ∧ k ≤ 52 ∧ inQuadrant (k - 49) c = true) ∨ (53 ≤ k ∧ k ≤ 60 ∧ inStack (k - 53) c = true) ∨
  (71 ≤ k ∧ k ≤ 74 ∧ inStore (k - 71) c = true)

/-- The domain is OFF or LOST. -/
def Domain.down (x : Domain) : Prop := x.st = .off ∨ x.st = .lost

/-- The device is in FALLOW, READY or RUN (R513). -/
def Hl.serving (h : Hl) : Prop := h.dev = .fallow ∨ h.dev = .ready ∨ h.dev = .run

/-- The device of `e` is in SAFE with the cause and detail given, entered at the time of `d`, every domain OFF (R515). -/
structure Dev.Safe (d e : Dev) (cause : W8) (detail : W16) : Prop where
  dev   : e.hl.dev = .safe
  why   : e.hl.safeCause = cause ∧ e.hl.safeDetail = detail ∧ e.hl.safeTime = d.hl.time
  off   : ∀ k, e.domOn k = (k == 0)
  still : e.hl.wdRun = false ∧ e.hl.devOpen = false ∧ e.hl.gpio = []

end Sys2Proof.Machine
end

