-- ==== Sys2Proof/Certificates/Slice0/Obligations.lean ====
section
/-! DEFINITION. The statements. -/

open Sys2Proof Sys2Proof.Machine

/-! Sequencer words. -/

/-- Every instruction is read back from its word (R172, R175). -/
def Obligations.WordReadsBack : Prop := ∀ op : SeqOp, decodeSeq (encodeSeq op) = some op

/-- A word that holds an instruction is that instruction's word: no two words hold one instruction, and no bit of
a word is dropped (R172, R175). -/
def Obligations.WordIsUnique : Prop := ∀ (w : BitVec 14) (op : SeqOp), decodeSeq w = some op → encodeSeq op = w

/-- Words of the worked programs of chapter 5 hold the instructions named beside them. -/
def Obligations.WorkedProgramWords : Prop :=
  decodeSeq 0x1608 = some (.movi 16 8) ∧ decodeSeq 0x3C02 = some (.ext 2) ∧ decodeSeq 0x14A0 = some (.movi 5 0) ∧
  decodeSeq 0x3421 = some (.sow 4 1) ∧ decodeSeq 0x0445 = some (.add 2 5) ∧ decodeSeq 0x1A1E = some (.dbnz 0 30) ∧
  decodeSeq 0x1C0C = some (.wait 0) ∧ decodeSeq 0x2268 = some (.mts 3 8) ∧ decodeSeq 0x1C8A = some (.crcb 4) ∧
  decodeSeq 0x20C9 = some (.mfs 6 9) ∧ decodeSeq 0x2532 = some (.xor 6 2)

/-- The immediate of R177, for no EXT word and for one to three: the EXT fields, first word most significant, then
the instruction's own field, sign-extended and cut to 32 bits. -/
def Obligations.ExtImmediate : Prop :=
  ∀ (e₁ e₂ e₃ : BitVec 10) (i : BitVec 5) (j : BitVec 9),
    immOf [] 5 i.toNat = i.signExtend 32 ∧
    immOf [e₁] 5 i.toNat = (e₁ ++ i).signExtend 32 ∧
    immOf [e₁, e₂] 5 i.toNat = (e₁ ++ e₂ ++ i).signExtend 32 ∧
    immOf [e₁, e₂, e₃] 5 i.toNat = (e₁ ++ e₂ ++ e₃ ++ i).signExtend 32 ∧
    immOf [] 9 j.toNat = j.signExtend 32 ∧
    immOf [e₁] 9 j.toNat = (e₁ ++ j).signExtend 32 ∧
    immOf [e₁, e₂] 9 j.toNat = (e₁ ++ e₂ ++ j).signExtend 32 ∧
    immOf [e₁, e₂, e₃] 9 j.toNat = (e₁ ++ e₂ ++ e₃ ++ j).signExtend 32 ∧
    immOf [] 0 0 = 0 ∧
    immOf [e₁] 0 0 = e₁.signExtend 32 ∧
    immOf [e₁, e₂] 0 0 = (e₁ ++ e₂).signExtend 32 ∧
    immOf [e₁, e₂, e₃] 0 0 = (e₁ ++ e₂ ++ e₃).signExtend 32

/-- Registers of a thread as code names them (R143, R174): g0 reads zero and a write to it is discarded; any other
register reads back what is written, every other register keeps its value. Pair d_k is g(2k+1) and g(2k): it reads
them, a write writes both, and of d0 only g1. While a fast handler runs, g24 to g31 (so d12 to d15) are the f bank,
the values of the interrupted code are untouched by any write, and RTE brings them back. -/
def Obligations.RegisterFile : Prop :=
  (∀ (x : Thread) (r q : Fin 32) (v : W32),
    x.rd 0 = 0 ∧ x.wr 0 v = x ∧
    (r ≠ 0 → (x.wr r v).rd r = v) ∧
    (q ≠ r → (x.wr r v).rd q = x.rd q) ∧
    (x.fb = true → 24 ≤ r.val → (x.wr r v).g = x.g ∧ x.rd r = x.f.get 0 (r - 24) ∧
      (x.wr r v).f = x.f.put (r - 24) v) ∧
    (x.fb = false ∨ r.val < 24 → (x.wr r v).f = x.f ∧ (r ≠ 0 → x.rd r = x.g.get 0 r))) ∧
  (∀ (x : Thread) (n : Fin 16) (q : Fin 32) (v : W64),
    (x.rdPair n).extractLsb' 32 32 = x.rd (2 * n + 1) ∧ (x.rdPair n).extractLsb' 0 32 = x.rd (2 * n) ∧
    (n ≠ 0 → (x.wrPair n v).rdPair n = v) ∧
    (q.val / 2 ≠ n.val → (x.wrPair n v).rd q = x.rd q) ∧
    x.wrPair 0 v = x.wr 1 (v.extractLsb' 32 32)) ∧
  (∀ (s : State) (t : Fin 96) (k : Fin 4) (x : Thread), CanIssue s.dev t k → NoExt s.dev t k → x = s.dev.thread t k →
    x.priv = true → x.fb = true → (x.festat.getLsbD 13 = true → x.fepriv.getLsbD 0 = true) →
    Does (.rte t k 0) s (fun e => ∀ r : Fin 32, 24 ≤ r.val → (e.thread t k).rd r = x.g.get 0 r))

/-! What a sequencer instruction does. The result is the whole next state: what an equation does not name stays. -/

/-- A thread that is not READY, or whose tiller is not ON, issues nothing (R139, R34). The model's choices here: log
entry 6. -/
def Obligations.NothingIssues : Prop :=
  ∀ (s : State) (t : Fin 96) (k : Fin 4) (op : SeqOp),
    ((s.dev.thread t k).st ≠ .ready ∨ s.dev.tillerOn t = false) → Gives (op.cmd t k) s s.dev

/-- ADD, ADDI, ADC, SUB, SBC, NEG, CMP (R180, R182): the sum or difference in exact integers, the carry or
no-borrow in C, signed overflow in V, N and Z from the result; nothing else changes but the pc. ADDI takes the
immediate of its EXT group. -/
def Obligations.AddAndSubtract : Prop :=
  ∀ (s : State) (t : Fin 96) (k : Fin 4), CanIssue s.dev t k →
    (∀ (a i : BitVec 5), Gives (.addi t k a i) s (s.dev.issuedThen t k (fun x =>
      x.sum a.toNat (x.rd a.toNat) (immOf (s.dev.thread t k).ext 5 i.toNat) 0))) ∧
    (NoExt s.dev t k → ∀ (a b : BitVec 5) (p : BitVec 4) (q : BitVec 3),
      Gives (.add t k a b) s (s.dev.issuedThen t k (fun x => x.sum a.toNat (x.rd a.toNat) (x.rd b.toNat) 0)) ∧
      Gives (.adc t k p q) s (s.dev.issuedThen t k (fun x => x.sum p.toNat (x.rd p.toNat) (x.rd q.toNat) (b2n x.c))) ∧
      Gives (.sub t k a b) s (s.dev.issuedThen t k (fun x => x.diff a.toNat (x.rd a.toNat) (x.rd b.toNat) 0)) ∧
      Gives (.sbc t k p q) s (s.dev.issuedThen t k (fun x => x.diff p.toNat (x.rd p.toNat) (x.rd q.toNat) (1 - b2n x.c))) ∧
      Gives (.neg t k a) s (s.dev.issuedThen t k (fun x => x.diff a.toNat 0 (x.rd a.toNat) 0)) ∧
      Gives (.cmp t k a b) s (s.dev.issuedThen t k (fun x => x.flagsOfDiff (x.rd a.toNat) (x.rd b.toNat) 0)))

/-- AND, OR, XOR, ANDN, NOT, BREV set Z and N from the result and leave C and V; PAR sets Z only (R180, R182).
MOV, MOVI and the extensions write the destination and no flag (R182). -/
def Obligations.LogicAndMoves : Prop :=
  (∀ (s : State) (t : Fin 96) (k : Fin 4), CanIssue s.dev t k → NoExt s.dev t k →
     ∀ (a : BitVec 4) (b : BitVec 3) (c : BitVec 5),
       Gives (.and t k a b) s (s.dev.issuedThen t k (fun x => x.withZN a.toNat (x.rd a.toNat &&& x.rd b.toNat))) ∧
       Gives (.or t k a b) s (s.dev.issuedThen t k (fun x => x.withZN a.toNat (x.rd a.toNat ||| x.rd b.toNat))) ∧
       Gives (.xor t k a b) s (s.dev.issuedThen t k (fun x => x.withZN a.toNat (x.rd a.toNat ^^^ x.rd b.toNat))) ∧
       Gives (.andn t k a b) s (s.dev.issuedThen t k (fun x => x.withZN a.toNat (x.rd a.toNat &&& ~~~ x.rd b.toNat))) ∧
       Gives (.not t k c) s (s.dev.issuedThen t k (fun x => x.withZN c.toNat (~~~ x.rd c.toNat))) ∧
       (∃ r : W32, (∀ i < 32, r.getLsbD i = ((s.dev.thread t k).rd c.toNat).getLsbD (31 - i)) ∧
         Gives (.brev t k c) s (s.dev.issuedThen t k (fun x => x.withZN c.toNat r))) ∧
       (∃ r : W32, r = (if ((List.range 32).filter (fun i => ((s.dev.thread t k).rd c.toNat).getLsbD i)).length % 2 = 1
           then 1 else 0) ∧
         Gives (.par t k c) s (s.dev.issuedThen t k (fun x => { x.wr c.toNat r with z := decide (r = 0) })))) ∧
  (∀ (s : State) (t : Fin 96) (k : Fin 4), CanIssue s.dev t k →
     (∀ (a i : BitVec 5), Gives (.movi t k a i) s (s.dev.issuedThen t k (fun x =>
       x.wr a.toNat (immOf (s.dev.thread t k).ext 5 i.toNat)))) ∧
     (NoExt s.dev t k → ∀ a b : BitVec 5,
       Gives (.mov t k a b) s (s.dev.issuedThen t k (fun x => x.wr a.toNat (x.rd b.toNat))) ∧
       Gives (.sext8 t k a) s (s.dev.issuedThen t k (fun x =>
         x.wr a.toNat (((x.rd a.toNat).setWidth 8).signExtend 32))) ∧
       Gives (.sext16 t k a) s (s.dev.issuedThen t k (fun x =>
         x.wr a.toNat (((x.rd a.toNat).setWidth 16).signExtend 32))) ∧
       Gives (.zext8 t k a) s (s.dev.issuedThen t k (fun x =>
         x.wr a.toNat (((x.rd a.toNat).setWidth 8).setWidth 32))) ∧
       Gives (.zext16 t k a) s (s.dev.issuedThen t k (fun x =>
         x.wr a.toNat (((x.rd a.toNat).setWidth 16).setWidth 32)))))

/-- SHL, SHR, SAR, ROL by the low five bits of g_b (R180, R182, R183): a count of zero leaves the register and C;
any other puts the last bit shifted out, or bit 0 of a rotation, in C; Z and N come from the result, V stays. -/
def Obligations.ShiftsAndRotates : Prop :=
  ∀ (s : State) (t : Fin 96) (k : Fin 4), CanIssue s.dev t k → NoExt s.dev t k →
    ∀ (a : BitVec 4) (b : BitVec 3) (n : Nat), n = ((s.dev.thread t k).rd b.toNat).toNat % 32 →
      (n = 0 → ∀ c ∈ [Instr.shl t k a b, .shr t k a b, .sar t k a b, .rol t k a b],
        Gives c s (s.dev.issuedThen t k (fun x => x.withZN a.toNat (x.rd a.toNat)))) ∧
      (n ≠ 0 →
        Gives (.shl t k a b) s (s.dev.issuedThen t k (fun x =>
          { x.withZN a.toNat (x.rd a.toNat <<< n) with c := (x.rd a.toNat).getLsbD (32 - n) })) ∧
        Gives (.shr t k a b) s (s.dev.issuedThen t k (fun x =>
          { x.withZN a.toNat (x.rd a.toNat >>> n) with c := (x.rd a.toNat).getLsbD (n - 1) })) ∧
        Gives (.sar t k a b) s (s.dev.issuedThen t k (fun x =>
          { x.withZN a.toNat ((x.rd a.toNat).sshiftRight n) with c := (x.rd a.toNat).getLsbD (n - 1) })) ∧
        Gives (.rol t k a b) s (s.dev.issuedThen t k (fun x =>
          { x.withZN a.toNat ((x.rd a.toNat).rotateLeft n) with c := ((x.rd a.toNat).rotateLeft n).getLsbD 0 })))

/-- MULW and MULWU write the exact 64-bit product of lo(d_a) and g_b into d_a, with Z and N from it (R180, R184).
DIV and DIVU (R185): quotient truncated toward zero and remainder of lo(d_a) by g_b in d_a, Z and N from the
quotient, V 0; by zero the quotient is 0, the remainder the dividend and V 1; the signed overflow gives
0x8000_0000, 0 and V 1. C stays. -/
def Obligations.ProductsAndQuotients : Prop :=
  (∀ (s : State) (t : Fin 96) (k : Fin 4), CanIssue s.dev t k → NoExt s.dev t k →
     ∀ (a : BitVec 4) (b : BitVec 3),
       Gives (.mulw t k a b) s (s.dev.issuedThen t k (fun x => x.withZN64 a.toNat
         (BitVec.ofInt 64 ((x.rd (2 * a.toNat)).toInt * (x.rd b.toNat).toInt)))) ∧
       Gives (.mulwu t k a b) s (s.dev.issuedThen t k (fun x => x.withZN64 a.toNat
         (BitVec.ofNat 64 ((x.rd (2 * a.toNat)).toNat * (x.rd b.toNat).toNat))))) ∧
  (∀ (s : State) (t : Fin 96) (k : Fin 4), CanIssue s.dev t k → NoExt s.dev t k →
     ∀ (a : BitVec 4) (b : BitVec 3) (p q : W32),
       p = (s.dev.thread t k).rd (2 * a.toNat) → q = (s.dev.thread t k).rd b.toNat →
       (q = 0 → ∀ c ∈ [Instr.div t k a b, .divu t k a b],
         Gives c s (s.dev.issuedThen t k (fun x => x.withQuot a.toNat 0 p true))) ∧
       (q ≠ 0 →
         Gives (.divu t k a b) s (s.dev.issuedThen t k (fun x => x.withQuot a.toNat
           (BitVec.ofNat 32 (p.toNat / q.toNat)) (BitVec.ofNat 32 (p.toNat % q.toNat)) false)) ∧
         (p = 0x80000000 ∧ q = 0xFFFFFFFF →
           Gives (.div t k a b) s (s.dev.issuedThen t k (fun x => x.withQuot a.toNat 0x80000000 0 true))) ∧
         (¬ (p = 0x80000000 ∧ q = 0xFFFFFFFF) →
           Gives (.div t k a b) s (s.dev.issuedThen t k (fun x => x.withQuot a.toNat
             (BitVec.ofInt 32 (p.toInt.tdiv q.toInt)) (BitVec.ofInt 32 (p.toInt.tmod q.toInt)) false)))))

/-- Branches, calls and jumps (R181, R195): the target is the address of the branch word plus the immediate, or
the register's low 14 bits; CALL and CALLR write the link, CALLR after its target is read; a branch not taken
only moves the pc on; DBNZ counts down whether or not it branches. -/
def Obligations.ControlTransfer : Prop :=
  ∀ (s : State) (t : Fin 96) (k : Fin 4) (x : Thread), CanIssue s.dev t k → x = s.dev.thread t k →
    (∀ (c : BitVec 4) (o : BitVec 5), c ≠ 15 →
      (x.holds c.toNat = true →
        Gives (.bcc t k c o) s (s.dev.branched t k (x.pc + (immOf x.ext 5 o.toNat).setWidth 14) id)) ∧
      (x.holds c.toNat = false → Gives (.bcc t k c o) s (s.dev.issued t k))) ∧
    (∀ (a : BitVec 4) (o : BitVec 5),
      (x.rd (16 + a.toNat) ≠ 1 → Gives (.dbnz t k a o) s (s.dev.branched t k
        (x.pc + (immOf x.ext 5 o.toNat).setWidth 14) (fun y => y.wr (16 + a.toNat) (x.rd (16 + a.toNat) - 1)))) ∧
      (x.rd (16 + a.toNat) = 1 →
        Gives (.dbnz t k a o) s (s.dev.issuedThen t k (fun y => y.wr (16 + a.toNat) 0)))) ∧
    (∀ o : BitVec 9,
      Gives (.jmp t k o) s (s.dev.branched t k (x.pc + (immOf x.ext 9 o.toNat).setWidth 14) id) ∧
      Gives (.call t k o) s (s.dev.branched t k (x.pc + (immOf x.ext 9 o.toNat).setWidth 14)
        (fun y => y.wr 31 ((x.pc + 1).setWidth 32)))) ∧
    (x.ext = [] → ∀ a : BitVec 5,
      Gives (.jr t k a) s (s.dev.branched t k ((x.rd a.toNat).setWidth 14) id) ∧
      Gives (.callr t k a) s (s.dev.branched t k ((x.rd a.toNat).setWidth 14)
        (fun y => y.wr 31 ((x.pc + 1).setWidth 32))))

/-- EXT adds its ten bits to the group, up to three words; PSYNC empties the prefetch buffer; FENCE ends at once where
the store buffer is empty and parks otherwise; CLAIM parks until it is decided; WAIT ends at once where its
condition holds and waits otherwise (R140, R177, R196, R293, R366). The model's choices here: log entry 38. -/
def Obligations.PrefixesAndWaits : Prop :=
  ∀ (s : State) (t : Fin 96) (k : Fin 4) (x : Thread), CanIssue s.dev t k → x = s.dev.thread t k →
    (x.ext.length < 3 → ∀ i : BitVec 10,
      Gives (.ext t k i) s (s.dev.issuedThen t k (fun y => { y with ext := x.ext ++ [i] }))) ∧
    (x.ext = [] →
      Gives (.psync t k 0) s (s.dev.issuedThen t k (fun y => { y with pf := [] })) ∧
      (x.sb = [] → Gives (.fence t k 0) s (s.dev.issued t k)) ∧
      (x.sb ≠ [] → Gives (.fence t k 0) s (s.dev.issuedThen t k (fun y => { y with st := .parked, park := .fence }))) ∧
      ∀ a : BitVec 5,
        Gives (.claim t k a) s (s.dev.issuedThen t k (fun y => { y with st := .parked, park := .claim a.toNat })) ∧
        (s.dev.openChain t k = none →
          (s.dev.waitDone t k ((x.rd a.toNat).toNat % 65536) = true → Gives (.wait t k a) s (s.dev.issued t k)) ∧
          (s.dev.waitDone t k ((x.rd a.toNat).toNat % 65536) = false →
            Gives (.wait t k a) s (s.dev.issuedThen t k (fun y =>
              { y with st := .waiting, park := .wait ((x.rd a.toNat).toNat % 65536) })))))

/-- LD and ST at an aligned local store offset (R149, R150, R187, R188): LD writes the bytes read, zero-extended, to the
register or pair; ST writes the low bytes of the register or pair, and every other byte of every memory reads as
before. LDH, STH, LDHW and STHW on a hopper that no chain holds, and PMW at S (R189): LDH and STH move the 64 bytes
between the hopper and the aligned line; LDHW and STHW move one 32-bit lane; PMW writes a program memory word. Nothing
else changes but the thread's pc and prefetch buffer and the counts of the local store's errors. A read or a partial
write of an uncorrectable granule takes vector 0x07, an LDH or STH at an address that is no multiple of 64 takes ALIGN,
and a hopper that a chain holds parks the thread (R138). The model's choices here: log entries 38, 40 and 42. -/
def Obligations.LocalMemory : Prop :=
  (∀ (s : State) (t : Fin 96) (k : Fin 4) (x : Thread) (size : BitVec 2) (a : BitVec 4) (b : BitVec 3) (ad : Nat),
     s.dev.mem.wf = true → CanIssue s.dev t k → x = s.dev.thread t k →
     ad = ((x.rd b.toNat).toNat + (immOf x.ext 0 0).toNat) % 65536 → ad % 2 ^ size.toNat = 0 →
     (∀ bs : List W8, bs.map some = (List.range (2 ^ size.toNat)).map (fun i => s.dev.lsByte t (ad + i)) →
       Does (.ld t k size a b) s (fun e =>
         e.thread t k = (if size = 3 then ((s.dev.issued t k).thread t k).wrPair a.toNat (BitVec.ofNat 64 (ofLE bs))
                         else ((s.dev.issued t k).thread t k).wr a.toNat (BitVec.ofNat 32 (ofLE bs))) ∧
         s.dev.SameMemBut e [] ∧ s.dev.OwnOnly e t k)) ∧
     (size = 3 ∨ s.dev.lsByte t ad ≠ none →
       Does (.st t k size a b) s (fun e =>
         e.thread t k = (s.dev.issued t k).thread t k ∧
         (∀ i < 2 ^ size.toNat, e.lsByte t (ad + i) =
           some (if size = 3 then (x.rdPair a.toNat).extractLsb' (8 * i) 8 else (x.rd a.toNat).extractLsb' (8 * i) 8)) ∧
         s.dev.SameMemBut e ((List.range (2 ^ size.toNat)).map (fun i => lsCell t (ad + i))) ∧ s.dev.OwnOnly e t k)) ∧
     (∀ w0, s.dev.CanEnter t k → s.dev.HasHandler t k 7 w0 → s.dev.lsByte t ad = none →
       ∀ c, c = Instr.ld t k size a b ∨ (c = .st t k size a b ∧ size ≠ 3) → Does c s (fun e =>
         s.dev.Entered e t k 7 0 (if x.ext = [] then x.pc else x.ipc) w0))) ∧
  (∀ (s : State) (t : Fin 96) (k : Fin 4) (x : Thread) (a : BitVec 4) (b : BitVec 3) (ad h l w : Nat),
     s.dev.mem.wf = true → CanIssue s.dev t k → x = s.dev.thread t k →
     ad = ((x.rd b.toNat).toNat + (immOf x.ext 0 0).toNat) % 65536 → h = (x.rd b.toNat).toNat / 16 % 16 → l = (x.rd b.toNat).toNat % 16 →
     w = (x.rd b.toNat).toNat % 2 ^ 14 →
     (s.dev.hopperHeld t a.toNat = false → ad % 64 = 0 →
       (∀ bs : List W8, bs.map some = (List.range 64).map (fun i => s.dev.lsByte t (ad + i)) →
         Does (.ldh t k a b) s (fun e =>
           (∀ i < 64, (e.tiller t).hop.get 0 (64 * a.toNat + i) = bs.getD i 0) ∧
           (∀ i, i < 64 * a.toNat ∨ 64 * a.toNat + 64 ≤ i → (e.tiller t).hop.get 0 i = (s.dev.tiller t).hop.get 0 i) ∧
           s.dev.SameMemBut e [] ∧ e.thread t k = (s.dev.issued t k).thread t k ∧ s.dev.OwnOnly e t k)) ∧
       Does (.sth t k a b) s (fun e =>
         (∀ i < 64, e.lsByte t (ad + i) = some ((s.dev.tiller t).hop.get 0 (64 * a.toNat + i))) ∧
         s.dev.SameMemBut e ((List.range 64).map (fun i => lsCell t (ad + i))) ∧ (e.tiller t).hop = (s.dev.tiller t).hop ∧
         e.thread t k = (s.dev.issued t k).thread t k ∧ s.dev.OwnOnly e t k)) ∧
     (s.dev.hopperHeld t a.toNat = false → ad % 64 ≠ 0 → ∀ w0, s.dev.CanEnter t k → s.dev.HasHandler t k 2 w0 →
       ∀ c ∈ [Instr.ldh t k a b, .sth t k a b], Does c s (fun e =>
         s.dev.Entered e t k 2 0 (if x.ext = [] then x.pc else x.ipc) w0 ∧ (e.thread t k).evaLo.toNat = ad)) ∧
     (s.dev.hopperHeld t a.toNat = true → ∀ c ∈ [Instr.ldh t k a b, .sth t k a b],
       Gives c s (s.dev.issuedThen t k (fun y => { y with st := .parked, park := .hopper a.toNat }))) ∧
     (x.ext = [] → s.dev.hopperHeld t h = false →
       Gives (.ldhw t k a b) s (s.dev.issuedThen t k (fun y => y.wr a.toNat
         (BitVec.ofNat 32 (ofLE ((List.range 4).map (fun i => (s.dev.tiller t).hop.get 0 (64 * h + 4 * l + i))))))) ∧
       Does (.sthw t k a b) s (fun e =>
         (∀ i < 4, (e.tiller t).hop.get 0 (64 * h + 4 * l + i) = (x.rd a.toNat).extractLsb' (8 * i) 8) ∧
         (∀ i, i < 64 * h + 4 * l ∨ 64 * h + 4 * l + 4 ≤ i → (e.tiller t).hop.get 0 i = (s.dev.tiller t).hop.get 0 i) ∧
         e.thread t k = (s.dev.issued t k).thread t k ∧ e.mem = s.dev.mem ∧ s.dev.OwnOnly e t k)) ∧
     (x.ext = [] → s.dev.hopperHeld t h = true → ∀ c ∈ [Instr.ldhw t k a b, .sthw t k a b],
       Gives c s (s.dev.issuedThen t k (fun y => { y with st := .parked, park := .hopper h }))) ∧
     (x.ext = [] → x.priv = true →
       Does (.pmw t k a b) s (fun e =>
         (e.pmRead t w).setWidth 14 = (x.rd a.toNat).setWidth 14 ∧ Dev.parityOk (e.pmRead t w) = true ∧
         (∀ c, c ≠ pmCell t (2 * w) → c ≠ pmCell t (2 * w + 1) → e.mem.raw c = s.dev.mem.raw c) ∧
         e.tiller t = s.dev.tiller t ∧ e.thread t k = (s.dev.issued t k).thread t k ∧ s.dev.OwnOnly e t k)))

/-- LDX and STX whose address is aligned and that a TLB translates (R152 to R154, R188): LDX parks for its data; STX
takes an entry of the store buffer with the low bytes of its register or pair, and parks where none is free. The
model's choices here: log entries 41 and 50. -/
def Obligations.RemoteAccess : Prop :=
  ∀ (s : State) (t : Fin 96) (k : Fin 4) (x : Thread) (size : BitVec 2) (a : BitVec 4) (b : BitVec 3) (va pa : Nat),
    CanIssue s.dev t k → x = s.dev.thread t k →
    (va : Int) = (x.rdPair b.toNat).toNat + (immOf x.ext 0 0).toInt → (x.rdPair b.toNat).toNat < 2 ^ 48 → va < 2 ^ 48 →
    va % 2 ^ size.toNat = 0 →
    (((s.dev.issued t k).lookup (Dev.tillerPath t) ⟨.read, s.dev.ctxOf t k, va⟩).2 = .pa pa →
      Does (.ldx t k size a b) s (fun e =>
        (e.thread t k).st = .parked ∧ (e.thread t k).g = x.g ∧ e.mem.cells = s.dev.mem.cells ∧
        (e.thread t k).park = .ldx { load := true, reg := a.toNat, size := 2 ^ size.toNat, va := va, pa := pa, data := 0 })) ∧
    (((s.dev.issued t k).lookup (Dev.tillerPath t) ⟨.write, s.dev.ctxOf t k, va⟩).2 = .pa pa →
      x.sb.length < 16 →
      Does (.stx t k size a b) s (fun e =>
        (e.thread t k).st = .ready ∧ (e.thread t k).g = x.g ∧ e.mem.cells = s.dev.mem.cells ∧
        ∃ n, (e.thread t k).sb = x.sb ++ [{ pa := pa, size := 2 ^ size.toNat, data := n, priv := x.priv }] ∧
          n = (if size = 3 then (x.rdPair a.toNat).toNat else (x.rd a.toNat).toNat) % 2 ^ (8 * 2 ^ size.toNat))) ∧
    (((s.dev.issued t k).lookup (Dev.tillerPath t) ⟨.write, s.dev.ctxOf t k, va⟩).2 = .pa pa →
      16 ≤ x.sb.length →
      Does (.stx t k size a b) s (fun e =>
        (e.thread t k).st = .parked ∧ (e.thread t k).sb = x.sb ∧ (e.thread t k).g = x.g ∧
        ∃ op : MemOp, (e.thread t k).park = .stxFull op ∧ op.pa = pa))

/-- CRC8 and CRCW feed the low byte, or the four bytes lowest first, to the thread's engine and leave the flags;
CRCB with a count of zero changes nothing, with one above 65,536 it sets V only, and otherwise feeds the bytes
of the local store in order, clears V, and leaves the offset past them and a count of zero (R191 to R193).
One byte fed to a check value of width 32, 16 or 8, in either bit order (R191): eight steps of the rule's own loop, and
a list of bytes is fed one after the other. -/
def Obligations.CheckInstructions : Prop :=
  (∀ (s : State) (t : Fin 96) (k : Fin 4) (x : Thread) (a : BitVec 5),
     s.dev.mem.wf = true → CanIssue s.dev t k → x = s.dev.thread t k → x.ext = [] →
     (∀ n c, (n, c) ∈ [(1, Instr.crc8 t k a), (4, Instr.crcw t k a)] →
       Gives c s (s.dev.issuedThen t k (fun y => { y with crcv := BitVec.ofNat 32 (crcBytes (x.crccfg.getLsbD 2)
         (Dev.crcWidth x) x.crcp.toNat x.crcv.toNat (toLE n (x.rd a.toNat).toNat)) }))) ∧
     (a.toNat % 2 = 0 →
       ((x.rd (a.toNat + 1)).toNat = 0 → Gives (.crcb t k a none) s (s.dev.issued t k)) ∧
       (65536 < (x.rd (a.toNat + 1)).toNat →
         Gives (.crcb t k a none) s (s.dev.issuedThen t k (fun y => { y with v := true }))) ∧
       (∀ bs : List W8, bs ≠ [] → bs.length = (x.rd (a.toNat + 1)).toNat → bs.length ≤ 65536 → a ≠ 0 →
         bs.map some = (List.range bs.length).map (fun i => s.dev.lsByte t ((x.rd a.toNat).toNat + i)) →
         Does (.crcb t k a none) s (fun e =>
           (e.thread t k).crcv = BitVec.ofNat 32 (crcBytes (x.crccfg.getLsbD 2) (Dev.crcWidth x) x.crcp.toNat
             x.crcv.toNat bs) ∧
           (e.thread t k).v = false ∧ (e.thread t k).rd (a.toNat + 1) = 0 ∧
           ((e.thread t k).rd a.toNat).toNat % 65536 = ((x.rd a.toNat).toNat + bs.length) % 65536 ∧
           ((e.thread t k).rd a.toNat).toNat / 65536 = (x.rd a.toNat).toNat / 65536)))) ∧
  ((∀ w ∈ [8, 16, 32], ∀ (p v : Nat) (x : W8),
     crcByte false w p v x.toNat = (List.range 8).foldl
       (fun u _ => ((u * 2) ^^^ (if u / 2 ^ (w - 1) % 2 = 1 then p % 2 ^ w else 0)) % 2 ^ w)
       ((v % 2 ^ w) ^^^ (x.toNat * 2 ^ (w - 8))) ∧
     crcByte true w p v x.toNat = (List.range 8).foldl
       (fun u _ => (u / 2) ^^^ (if u % 2 = 1 then p % 2 ^ w else 0)) ((v % 2 ^ w) ^^^ x.toNat)) ∧
   (∀ (w : Nat), w ∈ [8, 16, 32] → ∀ (refl : Bool) (p v : Nat) (bs cs : List W8),
     crcBytes refl w p v (bs ++ cs) = crcBytes refl w p (crcBytes refl w p v bs) cs ∧
     (bs ≠ [] → crcBytes refl w p v bs < 2 ^ w)) ∧
   crcBytes true 32 0x82F63B78 0xFFFFFFFF [0x31, 0x32, 0x33, 0x34, 0x35, 0x36, 0x37, 0x38, 0x39] = 0x1CF96D7C)

/-- MFS reads every special register as R199 assigns it, and a read of CYC_LO latches CYC_HI; MTS writes the fields
whose access allows it (R199 to R206); one of SEEDCTL with a command puts it into the tiller's queue. A register
that only S may reach needs S. The model's choices here: log entry 43. -/
def Obligations.SpecialRegisters : Prop :=
  ∀ (s : State) (t : Fin 96) (k : Fin 4) (x : Thread) (a : BitVec 4) (v : W32),
    CanIssue s.dev t k → x = s.dev.thread t k → x.ext = [] → v = x.rd a.toNat →
    (∀ p ∈ [(0, x.status), (8, x.crcp), (9, x.crcv), (10, x.crccfg), (11, x.amode), (13, x.seedfc), (14, x.stripdef),
            (17, x.cycHi)],
      Gives (.mfs t k a (BitVec.ofNat 5 p.1)) s (s.dev.issuedThen t k (fun y => y.wr a.toNat p.2))) ∧
    (x.priv = true → ∀ p ∈ [(1, x.epc), (2, x.estat), (3, x.ecause), (4, x.evaLo), (5, x.evaHi), (6, x.epriv),
        (7, x.htbase), (12, x.seedctl), (18, x.fepc), (19, x.festat), (20, x.fecause), (21, x.fepriv), (22, x.xctx0),
        (23, x.xctx1), (24, x.evcfg), (25, s.dev.evstat t k)],
      Gives (.mfs t k a (BitVec.ofNat 5 p.1)) s (s.dev.issuedThen t k (fun y => y.wr a.toNat p.2))) ∧
    Gives (.mfs t k a 16) s (s.dev.issuedThen t k (fun y =>
      ({ y with cycHi := BitVec.ofNat 32 (s.dev.cyc t / 2 ^ 32) }).wr a.toNat (BitVec.ofNat 32 (s.dev.cyc t)))) ∧
    Gives (.mts t k a 8) s (s.dev.issuedThen t k (fun y => { y with crcp := v })) ∧
    Gives (.mts t k a 9) s (s.dev.issuedThen t k (fun y => { y with crcv := v })) ∧
    (v.toNat % 4 ≠ 3 → Gives (.mts t k a 10) s (s.dev.issuedThen t k (fun y => { y with crccfg := v &&& 7 }))) ∧
    (v.toNat % 16 ∈ [0, 1, 2, 3, 4, 14, 15] →
      Gives (.mts t k a 14) s (s.dev.issuedThen t k (fun y => { y with stripdef := v &&& 15 }))) ∧
    Gives (.mts t k a 11) s (s.dev.issuedThen t k (fun y => { y with amode := v &&& 0x1FE7 })) ∧
    (∀ n ∈ [13, 16, 17], Gives (.mts t k a (BitVec.ofNat 5 n)) s (s.dev.issued t k)) ∧
    (x.priv = false → Gives (.mts t k a 0) s (s.dev.issuedThen t k (fun y =>
      { y with c := v.getLsbD 3, z := v.getLsbD 2, n := v.getLsbD 1, v := v.getLsbD 0, ct := v.getLsbD 11 }))) ∧
    (x.priv = true →
      Gives (.mts t k a 0) s (s.dev.issuedThen t k (fun y =>
        { y with c := v.getLsbD 3, z := v.getLsbD 2, n := v.getLsbD 1, v := v.getLsbD 0, ct := v.getLsbD 11,
                 sua := v.getLsbD 12 })) ∧
      Gives (.mts t k a 1) s (s.dev.issuedThen t k (fun y => { y with epc := v &&& 0x3FFF })) ∧
      Gives (.mts t k a 2) s (s.dev.issuedThen t k (fun y => { y with estat := v })) ∧
      Gives (.mts t k a 7) s (s.dev.issuedThen t k (fun y => { y with htbase := v &&& 0xFC00 })) ∧
      Gives (.mts t k a 19) s (s.dev.issuedThen t k (fun y => { y with festat := v })) ∧
      Gives (.mts t k a 22) s (s.dev.issuedThen t k (fun y => { y with xctx0 := v })) ∧
      Gives (.mts t k a 18) s (s.dev.issuedThen t k (fun y => { y with fepc := v &&& 0x3FFF })) ∧
      Gives (.mts t k a 23) s (s.dev.issuedThen t k (fun y => { y with xctx1 := v &&& 0x8FFF0003 })) ∧
      Gives (.mts t k a 24) s (s.dev.issuedThen t k (fun y => { y with evcfg := v &&& 0x1F })) ∧
      (v.toNat / 65536 % 4 = 0 → Gives (.mts t k a 12) s (s.dev.issuedThen t k (fun y =>
        { y with seedctl := (x.seedctl &&& 0xFFFF0000) ||| (v &&& 0xFFFF) }))) ∧
      (v.toNat / 65536 % 4 ∈ [1, 2] → x.seedctl.getLsbD 31 = false → Does (.mts t k a 12) s (fun e =>
        (e.thread t k).seedctl = (x.seedctl &&& 0x7FFF0000) ||| (v &&& 0xFFFF) ||| 0x80000000 ∧ (e.thread t k).g = x.g ∧
        (e.tiller t).cmds = (s.dev.tiller t).cmds ++
          [{ thread := k, cancel := v.toNat / 65536 % 4 == 2, sid := v.toNat % 65536 }] ∧ e.seeds = s.dev.seeds)) ∧
      ∀ n ∈ [3, 4, 5, 6, 20, 21, 25], Gives (.mts t k a (BitVec.ofNat 5 n)) s (s.dev.issued t k))

/-- SVC enters its handler: the saved address is the next word, ECAUSE holds the vector 0x20 + a and the number, the
status and pc become the handler's, the frame below the stack pointer holds the old ESTAT and EPC and the old g31
and g30, and g30 points at it (R196, R347). The stack pointer is the entry's own where its NEWSP bit is set or the
privilege changes, and g30 otherwise, cut to a multiple of 8. Where an instruction raises ILLEGAL, PRIV, ALIGN or
VA_RANGE on itself (R149, R176 to R178, R188, R197): condition 15, a reserved special register number, a field that
must be zero, an odd register of CRCB, an EXT word before an instruction that takes none, a fourth EXT word; RTE,
PMW and the S-only registers at J; an LD, ST, LDX or STX whose address is no multiple of its size; an LDX, STX, SOW
or TOW whose pair or sum lies outside 48 bits. The saved address is the first word of the group, and EVA holds the
address. The model's choices here: log entry 40. -/
def Obligations.PreciseExceptions : Prop :=
  (∀ (s : State) (t : Fin 96) (k : Fin 4) (x : Thread) (a : BitVec 5) (w0 sp fr : Nat),
     s.dev.mem.wf = true → CanIssue s.dev t k → NoExt s.dev t k → s.dev.CanEnter t k →
     s.dev.HasHandler t k (0x20 + a.toNat) w0 → x = s.dev.thread t k →
     sp = (if bitN w0 22 || bitN w0 20 != x.priv then fld w0 47 32 else (x.rd 30).toNat) →
     fr = (sp - sp % 8 + 0xFFF0) % 65536 →
     Does (.svc t k a) s (fun e =>
       s.dev.Entered e t k (0x20 + a.toNat) a.toNat (x.pc + 1) w0 ∧ (e.thread t k).rd 30 = BitVec.ofNat 32 fr ∧
       (∀ i < 4, e.lsByte t (fr + i) = some ((x.epc &&& 0x3FFF).extractLsb' (8 * i) 8) ∧
         e.lsByte t (fr + 4 + i) = some (x.estat.extractLsb' (8 * i) 8) ∧
         e.lsByte t (fr + 8 + i) = some ((x.rd 30).extractLsb' (8 * i) 8) ∧
         e.lsByte t (fr + 12 + i) = some ((x.rd 31).extractLsb' (8 * i) 8)) ∧
       s.dev.SameMemBut e ((List.range 16).map (fun i => lsCell t (fr + i))))) ∧
  (∀ (s : State) (t : Fin 96) (k : Fin 4) (x : Thread) (g : BitVec 14) (w0 : Nat),
     CanIssue s.dev t k → x = s.dev.thread t k → s.dev.CanEnter t k → g = (if x.ext = [] then x.pc else x.ipc) →
     (s.dev.HasHandler t k 0 w0 →
       (∀ o, Does (.bcc t k 15 o) s (fun e => s.dev.Entered e t k 0 0 g w0)) ∧
       (∀ (op : SeqOp), x.ext ≠ [] → op.takesExt = false → (∀ i, op ≠ .ext i) →
         Does (op.cmd t k) s (fun e => s.dev.Entered e t k 0 0 g w0)) ∧
       (∀ i, 3 ≤ x.ext.length → Does (.ext t k i) s (fun e => s.dev.Entered e t k 0 0 g w0)) ∧
       (x.ext = [] →
         (∀ a, ∀ n ∈ [15, 26, 27, 28, 29, 30, 31], ∀ c ∈ [Instr.mfs t k a (BitVec.ofNat 5 n), .mts t k a (BitVec.ofNat 5 n)],
           Does c s (fun e => s.dev.Entered e t k 0 0 g w0)) ∧
         (∀ a : BitVec 5, a ≠ 0 → ∀ c ∈ [Instr.rte t k a, .psync t k a, .fence t k a],
           Does c s (fun e => s.dev.Entered e t k 0 0 g w0)) ∧
         (∀ (a : BitVec 5) cut, a.toNat % 2 = 1 → Does (.crcb t k a cut) s (fun e => s.dev.Entered e t k 0 0 g w0)))) ∧
     (s.dev.HasHandler t k 1 w0 → x.ext = [] → x.priv = false →
       Does (.rte t k 0) s (fun e => s.dev.Entered e t k 1 0 g w0) ∧
       (∀ a b, Does (.pmw t k a b) s (fun e => s.dev.Entered e t k 1 0 g w0 ∧
         (s.dev.mem.wf = true → ∀ o < 2 ^ 14, e.pmRead t o = s.dev.pmRead t o))) ∧
       (∀ a, ∀ n ∈ [1, 2, 3, 4, 5, 6, 7, 12, 18, 19, 20, 21, 22, 23, 24, 25],
         ∀ c ∈ [Instr.mfs t k a (BitVec.ofNat 5 n), .mts t k a (BitVec.ofNat 5 n)],
           Does c s (fun e => s.dev.Entered e t k 1 0 g w0))) ∧
     (s.dev.HasHandler t k 2 w0 → ∀ (size : BitVec 2) (a : BitVec 4) (b : BitVec 3) (ad : Nat), ad % 2 ^ size.toNat ≠ 0 →
       (ad = ((x.rd b.toNat).toNat + (immOf x.ext 0 0).toNat) % 65536 → ∀ c ∈ [Instr.ld t k size a b, .st t k size a b],
         Does c s (fun e => s.dev.Entered e t k 2 0 g w0 ∧ (e.thread t k).evaLo.toNat = ad ∧ (e.thread t k).evaHi = 0)) ∧
       ((ad : Int) = (x.rdPair b.toNat).toNat + (immOf x.ext 0 0).toInt → (x.rdPair b.toNat).toNat < 2 ^ 48 → ad < 2 ^ 48 →
         ∀ c ∈ [Instr.ldx t k size a b, .stx t k size a b],
         Does c s (fun e => s.dev.Entered e t k 2 0 g w0 ∧
           (e.thread t k).evaLo.toNat + 2 ^ 32 * (e.thread t k).evaHi.toNat = ad))) ∧
     (s.dev.HasHandler t k 3 w0 → ∀ (size : BitVec 2) (a : BitVec 4) (b : BitVec 3) (v : Int),
       v = (x.rdPair b.toNat).toNat + (immOf x.ext 0 0).toInt → (2 ^ 48 ≤ (x.rdPair b.toNat).toNat ∨ v < 0 ∨ 2 ^ 48 ≤ v) →
       ∀ c ∈ [Instr.ldx t k size a b, .stx t k size a b, .sow t k a b, .tow t k a b],
       Does c s (fun e => s.dev.Entered e t k 3 0 g w0 ∧ e.seeds = s.dev.seeds ∧ (e.thread t k).sb = x.sb)))

/-- RTE at S returns (R352, R353): in the normal class, where the check passes and the frame reads, the pc comes from
EPC, the mode bits and flags from ESTAT, EPC, ESTAT, g30 and g31 from the frame, and a level of EPRIV is popped;
from a fast handler, the pc comes from FEPC, the status from FESTAT, and the g bank returns. -/
def Obligations.ReturnFromException : Prop :=
  ∀ (s : State) (t : Fin 96) (k : Fin 4) (x : Thread), CanIssue s.dev t k → NoExt s.dev t k → x = s.dev.thread t k →
    x.priv = true →
    (∀ bs : List W8, x.fb = false → 0 < x.depth → x.depth ≤ 8 →
      (x.estat.getLsbD 13 = true → bitN x.pstk (x.depth - 1) = true) →
      bs.map some = (List.range 16).map (fun i => s.dev.lsByte t ((x.rd 30).toNat + i)) →
      Does (.rte t k 0) s (fun e =>
        (e.thread t k).pc = x.epc.setWidth 14 ∧ (e.thread t k).priv = x.estat.getLsbD 13 ∧
        (e.thread t k).sua = x.estat.getLsbD 12 ∧ (e.thread t k).ct = x.estat.getLsbD 11 ∧
        (e.thread t k).c = x.estat.getLsbD 3 ∧ (e.thread t k).z = x.estat.getLsbD 2 ∧
        (e.thread t k).n = x.estat.getLsbD 1 ∧ (e.thread t k).v = x.estat.getLsbD 0 ∧
        (e.thread t k).fb = false ∧ (e.thread t k).depth = x.depth - 1 ∧
        (e.thread t k).epc.toNat = ofLE (bs.take 4) % 2 ^ 14 ∧ (e.thread t k).estat.toNat = ofLE ((bs.drop 4).take 4) ∧
        ((e.thread t k).rd 30).toNat = ofLE ((bs.drop 8).take 4) ∧ ((e.thread t k).rd 31).toNat = ofLE (bs.drop 12))) ∧
    (x.fb = true → (x.festat.getLsbD 13 = true → x.fepriv.getLsbD 0 = true) →
      Does (.rte t k 0) s (fun e =>
        (e.thread t k).pc = x.fepc.setWidth 14 ∧ (e.thread t k).priv = x.festat.getLsbD 13 ∧
        (e.thread t k).sua = x.festat.getLsbD 12 ∧ (e.thread t k).ct = x.festat.getLsbD 11 ∧
        (e.thread t k).c = x.festat.getLsbD 3 ∧ (e.thread t k).z = x.festat.getLsbD 2 ∧
        (e.thread t k).n = x.festat.getLsbD 1 ∧ (e.thread t k).v = x.festat.getLsbD 0 ∧
        (e.thread t k).fb = false ∧ (e.thread t k).g = x.g ∧ (e.thread t k).epriv = x.epriv ∧
        e.mem = s.dev.mem))

/-- SOW and TOW at a descriptor address that a TLB translates (R66, R190): the thread parks while the descriptor is
fetched; a SOW first breaks a chain that is open, here there is none. Where the store buffer holds entries or the
thread's eight slots are taken, the thread parks for that. The model's choices here: log entry 26. -/
def Obligations.SowingStarts : Prop :=
  ∀ (s : State) (t : Fin 96) (k : Fin 4) (x : Thread) (a : BitVec 4) (b : BitVec 3) (va pa : Nat),
    CanIssue s.dev t k → x = s.dev.thread t k →
    (va : Int) = (x.rdPair b.toNat).toNat + (immOf x.ext 0 0).toInt → (x.rdPair b.toNat).toNat < 2 ^ 48 → va < 2 ^ 48 →
    s.dev.openChain t k = none →
    ∀ towed : Bool, ∀ c, c = (if towed then Instr.tow t k a b else .sow t k a b) →
      (x.sb = [] → (s.dev.slotsBusy t k).length < 8 → va % 64 = 0 →
        ((s.dev.issued t k).lookup (Dev.tillerPath t) ⟨.fetch, s.dev.ctxOf t k, va⟩).2 = .pa pa →
        Does c s (fun e => (e.thread t k).st = .parked ∧ (e.thread t k).park = .sowFetch towed a.toNat va pa ∧
          (e.thread t k).g = x.g ∧ e.seeds = s.dev.seeds ∧ e.mem.cells = s.dev.mem.cells)) ∧
      (x.sb ≠ [] ∨ 8 ≤ (s.dev.slotsBusy t k).length →
        Gives c s (s.dev.issuedThen t k (fun y => { y with st := .parked, park := .sowDrain towed a.toNat va })))

/-! Threads, events and claims. -/

/-- Taking an event (R346 to R349): in a slot that recognizes it, where it is the first deliverable one. The normal
classes enter by the normal sequence, with the vector of the event in ECAUSE and the pending slots or count as INFO,
which are cleared; the fast class saves into FEPC, FESTAT and FEPRIV, switches to the f bank and pushes no frame.
The presentation a thread takes no longer stands at its tiller. The model's choices here: log entry 46. -/
def Obligations.EventEntries : Prop :=
  ∀ (s : State) (t : Fin 96) (k : Fin 4) (x : Thread) (w0 : Nat),
    x = s.dev.thread t k → Dev.recognizes x = true → x.dbg.haltReq = 0 →
    (∀ p ∈ [(Dev.EvKind.normal, 0x10, 0, Instr.normalEvent t k), (.seedDone, 0x12, x.sdone.toNat, .seedDone t k),
            (.seedFault, 0x13, x.sfault.toNat, .seedFault t k), (.asyncStore, 0x14, x.asq.length % 16, .asyncStore t k)],
      s.dev.deliverable t k = some p.1 → s.dev.HasHandler t k p.2.1 w0 →
      Does p.2.2.2 s (fun e =>
        s.dev.EnteredEvent e t k p.2.1 p.2.2.1 (Dev.eventSaved x) w0 ∧
        (p.1 = .normal → e.standing t false = []) ∧
        (p.1 = .seedDone → (e.thread t k).sdone = 0) ∧ (p.1 ≠ .seedDone → (e.thread t k).sdone = x.sdone) ∧
        (p.1 = .seedFault → (e.thread t k).sfault = 0) ∧ (p.1 ≠ .seedFault → (e.thread t k).sfault = x.sfault) ∧
        (p.1 = .asyncStore → (e.thread t k).asp = false) ∧ (e.thread t k).asq = x.asq)) ∧
    (s.dev.deliverable t k = some .fast → s.dev.HasHandler t k 0x11 w0 →
      Does (.fastEvent t k) s (fun e =>
        (e.thread t k).fepc = (Dev.eventSaved x).setWidth 32 ∧ (e.thread t k).festat = x.status ∧
        (e.thread t k).fepriv = (if x.priv then 1 else 0) ∧ (e.thread t k).fecause = 0x44000000 ∧
        (e.thread t k).fb = true ∧ (e.thread t k).pc = BitVec.ofNat 14 w0 ∧ (e.thread t k).priv = bitN w0 20 ∧
        (e.thread t k).sua = bitN w0 25 ∧ (e.thread t k).ct = bitN w0 24 ∧ (e.thread t k).st = .ready ∧
        (e.thread t k).g = x.g ∧ (e.thread t k).f = x.f ∧ (e.thread t k).epc = x.epc ∧
        (e.thread t k).estat = x.estat ∧ (e.thread t k).epriv = x.epriv ∧ e.standing t true = []))

/-- A start of a STOPPED thread, a stop, and a pop of a failed-store record, by any agent that reaches the registers
(R167 to R169, R357). The start gives the entry address and privilege and the argument in g1, clears EPRIV, FEPRIV
and the stop reason, and leaves every other register; the stop records where the thread would have issued next. The
model's choices here: log entries 45 and 49. -/
def Obligations.ThreadControl : Prop :=
  ∀ (s : State) (w : Agent) (t : Fin 96) (k : Fin 4) (x : Thread),
    x = s.dev.thread t k → w.Reaches s.dev → s.dev.tillerOn t = true →
    (x.st = .stopped → (s.dev.tiller t).hos.getLsbD k = false →
      Does (.tcStart w t k) s (fun e =>
        (e.thread t k).st = .ready ∧ (e.thread t k).pc = x.entry.setWidth 14 ∧ (e.thread t k).priv = x.entry.getLsbD 16 ∧
        (e.thread t k).epriv = 0 ∧ (e.thread t k).fepriv = 0 ∧ (e.thread t k).threrr = 0 ∧ (e.thread t k).fb = false ∧
        (e.thread t k).g = (x.wr 1 x.arg).g ∧ e.mem = s.dev.mem ∧
        ∀ (t' : Fin 96) (k' : Fin 4), (t', k') ≠ (t, k) → e.thread t' k' = s.dev.thread t' k')) ∧
    (x.halted = false →
      (x.st = .ready → Gives (.tcStop w t k) s
        (w.ends s.dev (s.dev.stopAt t k (if x.ext = [] then x.pc else x.ipc) false))) ∧
      (x.st = .waiting ∨ (x.st = .parked ∧ x.abandons = true) →
        Gives (.tcStop w t k) s (w.ends s.dev (s.dev.stopAt t k x.ipc false))) ∧
      (x.st = .parked → x.abandons = false →
        Gives (.tcStop w t k) s (w.ends s.dev (s.dev.setThread t k { x with st := .stopping })))) ∧
    (x.halted = true →
      Gives (.tcStop w t k) s (w.ends s.dev (s.dev.setThread t k { x with dbg := { x.dbg with stopReq := true } }))) ∧
    (s.dev.domOn 70 = true → w.isMaster = true ∨ w = .thread t k →
      Gives (.asPop w t k) s (w.ends s.dev (s.dev.setThread t k { x with asq := x.asq.drop 1 })))

/-- How a source goes from an occurrence to a delivery (R363, R364, R368): a trigger raises its count, saturating, and
its pending bit; its coalescing timer reaches MODTIME; the Event Controller learns whether a tiller is idle; a due
source whose turn it is, of the four of an fc in ascending order, is committed; a committed one is presented once to
each target tiller that is ON with its gate open, also where it was granted or withdrawn before its first
presentation; a withdrawal takes it from every tiller; one masked in time ends without a grant. The model's choices
here: log entries 4, 46, 47, 48 and 179. -/
def Obligations.EventDelivery : Prop :=
  ∀ (s : State) (n : BitVec 11) (x : EvSrc), x = s.dev.src n.toNat →
    (∀ w : Agent, w.Reaches s.dev → s.dev.domOn 70 = true → Dev.validSource n.toNat = true →
      w.isMaster = true ∨ 0x7C0 ≤ n.toNat →
      Gives (.evTrig w n) s (w.ends s.dev (s.dev.setSrc n.toNat { x with
        count := if x.count = 0xFF then 0xFF else x.count + 1, pend := true,
        timer0 := if x.count = 0 then s.dev.fc else x.timer0, ahead := if x.count = 0 then 0 else x.ahead }))) ∧
    (x.count ≠ 0 → Does (.moderationTimeout n) s (fun e =>
      e = s.dev.setSrc n.toNat { x with ahead := (e.src n.toNat).ahead } ∧
      e.timerOf (e.src n.toNat) = max (s.dev.timerOf x) (128 * x.modTime))) ∧
    (x.count = 0 → Gives (.moderationTimeout n) s s.dev) ∧
    (∀ t : Fin 96, s.dev.domOn 70 = true → Does (.idleStateUpdate t) s (fun e =>
      e.evc.idle.get true t = (List.range 4).all (fun k =>
        (s.dev.thread t k).st == .waiting || (s.dev.thread t k).st == .stopped) ∧
      e = { s.dev with evc := e.evc } ∧ e.evc.src = s.dev.evc.src)) ∧
    (s.dev.due n.toNat = true → s.dev.commitTurn n.toNat = true →
      Does (.deliveryCommit n) s (fun e =>
        (e.src n.toNat).dlv = true ∧ (e.src n.toNat).pend = true ∧ (e.src n.toNat).commit = s.dev.fc ∧
        ∀ m, m ≠ n.toNat → (m < 0x610 ∨ 0x61F < m ∨ (x.host = false ∧ x.sb = false)) → e.src m = s.dev.src m)) ∧
    (s.dev.due n.toNat = false ∨ s.dev.commitTurn n.toNat = false → Gives (.deliveryCommit n) s s.dev) ∧
    (x.dlv = true ∧ x.wd = false ∨ x.dlv = false ∧ x.wd = true ∧ x.toShow = true → ∀ t : Fin 96, s.dev.tillerOn t = true →
      s.dev.gate t = false → x.targets t = true → t.val ∉ x.shown ∨ t.val ∈ x.again →
      Does (.deliveryPresent n) s (fun e =>
        e.standing t x.fast = (s.dev.standing t x.fast).filter (· != n.toNat) ++ [n.toNat] ∧ t.val ∉ (e.src n.toNat).again ∧
        (x.dlv = true → t.val ∈ (e.src n.toNat).shown) ∧ (e.src n.toNat).toShow = false)) ∧
    (x.wd = true → Does (.deliveryWithdraw n) s (fun e =>
      (∀ (t : Fin 96) (f : Bool), n.toNat ∉ e.standing t f) ∧
      e.src n.toNat = { x with wd := false, toShow := x.toShow && x.dlv })) ∧
    (x.dlv = true → x.window = true →
      Gives (.maskWithdraw n) s (s.dev.setSrc n.toNat { x with dlv := false, window := false, wd := true }))

/-- Claims (R366, R367): a thread, or the host, that is granted a source ends its delivery, clears its count and pending
bit and is recorded as its claimer; where no source may be granted the number is 0x7FF. A thread's claim is decided
in an fc in which no claimant after it in the order of R367 has been. The model's choices here: log entry 46. -/
def Obligations.Claims : Prop :=
  ∀ (s : State), s.dev.domOn 70 = true →
    (∀ (t : Fin 96) (k : Fin 4) (x : Thread) (r : BitVec 5), x = s.dev.thread t k → x.st = .parked →
      x.park = .claim r.toNat → x.dbg.busy = false → x.dbg.haltReq = 0 → s.dev.tillerOn t = true →
      s.dev.claimTurn (4 * t + k) = true →
      (∀ n, (∀ m, (Dev.claimable (s.dev.src m) && (s.dev.src m).targets t && (s.dev.src m).shown.contains t.val) = true ↔
            m = n) → ((s.dev.src n).fast = true → x.fb = true ∨ x.kind = 0) → ((s.dev.src n).fast = false → x.fb = false) →
        Does (.claimDecide t k) s (fun e =>
          (e.thread t k).st = .ready ∧ (e.thread t k).g = (x.wr r.toNat (BitVec.ofNat 32 n)).g ∧
          (e.src n).pend = false ∧ (e.src n).count = 0 ∧ (e.src n).dlv = false ∧
          (e.src n).claimer = BitVec.ofNat 8 t ∧ (e.src n).cthread = BitVec.ofNat 2 k)) ∧
      ((∀ m, (Dev.claimable (s.dev.src m) && (s.dev.src m).targets t && (s.dev.src m).shown.contains t.val) = false) →
        Does (.claimDecide t k) s (fun e =>
          (e.thread t k).st = .ready ∧ (e.thread t k).g = (x.wr r.toNat 0x7FF).g ∧ e.evc.src = s.dev.evc.src ∧
          e.evc.stand = s.dev.evc.stand))) ∧
    (∀ (t : Fin 96) (k : Fin 4) (r : Nat), (s.dev.thread t k).park = .claim r → s.dev.claimTurn (4 * t + k) = false →
      Gives (.claimDecide t k) s s.dev) ∧
    (s.dev.hostReaches = true → s.dev.pcie.d3 = false →
      (∀ n, n < 0x800 → (∀ m, (Dev.claimable (s.dev.src m) && (s.dev.src m).host) = true ↔ m = n) →
        Does .hostClaim s (fun e =>
          (e.src n).pend = false ∧ (e.src n).count = 0 ∧ (e.src n).dlv = false ∧ (e.src n).claimer = 0x60 ∧
          e.out = .completion true (toLE 8 n) :: s.dev.out)) ∧
      ((∀ m, (Dev.claimable (s.dev.src m) && (s.dev.src m).host) = false) →
        Does .hostClaim s (fun e => e.evc.src = s.dev.evc.src ∧ e.out = .completion true (toLE 8 0x7FF) :: s.dev.out)))

/-- How a parked LDX ends, how a store buffer empties, how a walk and an ATOM operation end (R33, R153 to R155, R285,
R324). An LDX takes its data into the register or pair and the thread goes on; an entry of the store buffer is sent
and then acknowledged, and its bytes are in memory; a walk gives the physical address; an ATOM operation leaves the
old item in the register and in ATOM_OLD. A walk that is not one of the eight its walker runs has to wait. The model's
choices here: log entries 9, 41 and 51. -/
def Obligations.ParkedInstructionsEnd : Prop :=
  ∀ (s : State) (t : Fin 96) (k : Fin 4) (x : Thread), x = s.dev.thread t k → s.dev.tillerOn t = true →
    (∀ (op : MemOp) (d₁ : Dev) (bs : List W8), x.st = .parked → x.park = .ldx op → x.dbg.busy = false →
      x.dbg.haltReq = 0 → x.sb = [] → Dev.outside op.pa = false → Dev.isAtomExec op = false → Dev.isXiSync op = false →
      s.dev.busRead (.thread t k x.priv) 3 op.pa op.size = (d₁, .ok bs) → d₁.thread t k = x →
      Does (.ldxDataReturn t k) s (fun e =>
        (e.thread t k).st = .ready ∧ (e.thread t k).park = .none ∧ e.mem = d₁.mem ∧
        (e.thread t k).g = (if op.size = 8 then x.wrPair op.reg (BitVec.ofNat 64 (ofLE bs))
          else x.wr op.reg (BitVec.ofNat 32 (ofLE bs))).g)) ∧
    (∀ (b : SbEntry) (r : List SbEntry), x.sb = b :: r → b.sent = false →
      Gives (.stxEntrySend t k) s (s.dev.setThread t k { x with sb := { b with sent := true } :: r })) ∧
    (∀ (b : SbEntry) (r : List SbEntry) (d₁ : Dev), x.sb = b :: r → b.sent = true → x.park = .none →
      s.dev.stxFeeds b.pa = false → s.dev.busWrite (.thread t k b.priv) b.pa (toLE b.size b.data) = (d₁, .ok ()) → d₁.thread t k = x →
      Gives (.stxAck t k 0) s (s.dev.settleFreeze (d₁.modThread t k (fun y => { y with sb := y.sb.drop 1 })))) ∧
    (∀ (op : MemOp) (d₁ : Dev) (pa : Nat), x.st = .parked → x.park = .walk op → op.load = false → x.sb.length < 16 →
      x.dbg.busy = false → x.dbg.haltReq = 0 → s.dev.walkRuns t k = true →
      s.dev.xlate (Dev.tillerPath t) ⟨.write, s.dev.ctxOf t k, op.va⟩ = (d₁, .ok pa) → d₁.thread t k = x → op.stale = [] →
      Does (.walkComplete t k) s (fun e =>
        (e.thread t k).st = .ready ∧ e.mem = d₁.mem ∧
        (e.thread t k).sb = x.sb ++ [{ pa := pa, size := op.size, data := op.data, priv := x.priv }])) ∧
    (s.dev.walkRuns t k = false → Gives (.walkComplete t k) s s.dev) ∧
    (∀ (op : MemOp) (d₁ d₂ : Dev) (pa n old : Nat), x.st = .parked → x.park = .ldx op → Dev.isAtomExec op = true →
      x.dbg.busy = false → x.dbg.haltReq = 0 → x.dbg.brk = false → x.sb = [] → s.dev.domOn (Dev.granDom (t / 24)) = true →
      n = 2 ^ fld (s.dev.atom t k).req.toNat 59 58 → fld (s.dev.atom t k).req.toNat 47 0 % n = 0 →
      s.dev.xlate ⟨none, t / 24⟩ ⟨.atom, s.dev.ctxOf t k, fld (s.dev.atom t k).req.toNat 47 0⟩ = (d₁, .ok pa) →
      d₁.bankDo (.thread t k x.priv) 3 (fld (s.dev.atom t k).req.toNat 63 60) n pa (s.dev.atom t k).opnd.toNat
        (s.dev.atom t k).cmp.toNat = (d₂, .ok old) → d₂.thread t k = x →
      Does (.atomExec t k) s (fun e =>
        (e.thread t k).st = .ready ∧ (e.atom t k).old = BitVec.ofNat 64 old ∧ e.mem = d₂.mem ∧
        (e.thread t k).g = (if op.size = 8 then x.wrPair op.reg (BitVec.ofNat 64 (old % 2 ^ 64))
          else x.wr op.reg (BitVec.ofNat 32 (old % 2 ^ 32))).g))

/-! Seeds and strips. -/

/-- PAUSE and CANCEL, their end, a descriptor that returns and is rejected or accepted, a chain that waits too long, a
seed that ends and one whose write-back is acknowledged (R66 to R68, R81, R83, R84, R88, R203). A command stops the
seed it names and those sown after it by the same thread; PAUSE is refused with RESULT 2 where one of them that has
strips left cannot pause, and a seed that is not in flight gives RESULT 3. The model's choices here: log entries 30, 44,
155, 160 and 164. -/
def Obligations.SeedLife : Prop :=
  ∀ (s : State) (t : Fin 96) (k : Fin 4) (x : Thread), x = s.dev.thread t k →
    (∀ (c : SeedCmd) (r : List SeedCmd) (pre post aff : List Seed) (sd : Seed), (s.dev.tiller t).cmds = c :: r →
      c.started = false → fld c.sid 11 5 = t.val → s.dev.seedsOf t (fld c.sid 4 3) = pre ++ sd :: post →
      (∀ y ∈ pre, y.same sd = false ∧ y.links.any (fun l => l.sid == c.sid && !l.gone) = false) →
      sd.links.any (fun l => l.sid == c.sid && !l.gone) = true →
      aff = (sd :: post).filter (fun y => y.links.all (fun l => l.fin.isNone)) →
      (c.cancel = false → (∀ y ∈ aff, y.unfinished = true → ∀ l ∈ y.links, ((opInfo (fOP l.ctrl)).getD {}).pause = true) →
        Gives (.seedPause t) s ((aff.foldl (fun d y => d.putSeed { y with stop := 1 }) s.dev).modTiller t
          (fun y => { y with cmds := { c with ids := aff.map Seed.sidOf, started := true } :: r }))) ∧
      (c.cancel = true →
        Gives (.seedCancel t) s ((aff.foldl (fun d y => d.putSeed { y with stop := 2 }) s.dev).modTiller t
          (fun y => { y with cmds := { c with ids := aff.map Seed.sidOf, started := true } :: r }))) ∧
      (c.cancel = false → c.thread = k.val → (∀ v, x.park ≠ .seedctl v) →
        (∃ y ∈ aff, y.unfinished = true ∧ ∃ l ∈ y.links, ((opInfo (fOP l.ctrl)).getD {}).pause = false) →
        Does (.seedPause t) s (fun e => (e.tiller t).cmds = r ∧ (e.thread t k).seedctl.getLsbD 31 = false ∧
          fld (e.thread t k).seedctl.toNat 30 29 = 2 ∧ e.seeds = s.dev.seeds))) ∧
    (∀ (c : SeedCmd) (r : List SeedCmd), (s.dev.tiller t).cmds = c :: r → c.thread = k.val → (∀ v, x.park ≠ .seedctl v) →
      (c.started = false → fld c.sid 11 5 ≠ t.val ∨ (∀ y ∈ s.dev.seedsOf t (fld c.sid 4 3),
          y.links.any (fun l => l.sid == c.sid && !l.gone) = false) →
        ∀ p ∈ [(false, Instr.seedPause t), (true, .seedCancel t)], c.cancel = p.1 → Does p.2 s (fun e =>
          (e.tiller t).cmds = r ∧ (e.thread t k).seedctl.getLsbD 31 = false ∧
          fld (e.thread t k).seedctl.toNat 30 29 = 3 ∧ e.seeds = s.dev.seeds)) ∧
      (c.started = true →
        ((∀ sd ∈ s.dev.seeds, sd.tiller = t → Seed.sidOf sd ∉ c.ids) →
          Does (.seedctlCommandDone t) s (fun e =>
            (e.tiller t).cmds = r ∧ (e.thread t k).seedctl.getLsbD 31 = false ∧
            fld (e.thread t k).seedctl.toNat 30 29 = 1 ∧ e.seeds = s.dev.seeds)) ∧
        ((∃ sd ∈ s.dev.seeds, sd.tiller = t ∧ Seed.sidOf sd ∈ c.ids) → Gives (.seedctlCommandDone t) s s.dev))) ∧
    (∀ (towed : Bool) (reg va pa : Nat) (st : List Nat) (d₁ : Dev) (bs : List W8), x.park = .sowFetch towed reg va pa st →
      (s.dev.landQueued (fun y => y.tiller == t && y.thread == k)).streamRead (.thread t k x.priv) 3 pa 64 = (d₁, .ok bs) →
      (fTLOUT (DWords.ofBytes bs).ctrl = true → d₁.pairHeldByOther t k (fTLHOP (DWords.ofBytes bs).ctrl) = false) →
      (∀ slot d₂ rs, d₁.descCheck t k towed (DWords.ofBytes bs) = 0 →
        ((DWords.ofBytes bs).len = 0 ∧ d₂ = d₁ ∧ rs = []) ∨
          ((DWords.ofBytes bs).len ≠ 0 ∧ Dev.addrCheck (DWords.ofBytes bs) towed rs = 0 ∧
            d₁.xlateRanges t (d₁.ctxOf t k) (rangesOf (DWords.ofBytes bs) towed) = (d₂, .ok rs)) →
        d₂.freeSlot t k = some slot →
        Gives (.sowDescriptorReturn t k) s (s.dev.settleFreeze
          (let r := d₂.acceptSeed t k towed va pa slot (DWords.ofBytes bs) (d₁.ctxOf t k) rs
           (r.1.modThread t k (fun y => y.wr reg (BitVec.ofNat 32 r.2))).resume t k))) ∧
      (d₁.descCheck t k towed (DWords.ofBytes bs) ≠ 0 →
        Gives (.sowDescriptorReturn t k) s (s.dev.settleFreeze
          (d₁.sowReject t k pa (d₁.descCheck t k towed (DWords.ofBytes bs)) (DWords.ofBytes bs))))) ∧
    (∀ sd : Seed, s.dev.openChain t k = some sd → (∀ j : Fin 4, (s.dev.thread t j).park = .none) →
      Does (.chainBreakTimeout t k) s (fun e => (e.thread t k).towo = false ∧ sd ∉ e.seeds)) ∧
    (s.dev.openChain t k = none → Gives (.chainBreakTimeout t k) s s.dev) ∧
    (∀ (slot : Fin 8) (sd y : Seed), s.dev.seedAt t k slot = some sd → sd.links ≠ [] → sd.links.all (fun l => l.fin.isNone) = true →
      y = sd.settled →
      (sd.isOpen = false → y.fault = none → y.stripsDone = true → y.combined = true →
        (∀ l, y.links.getLast? = some l → Dev.resultOf y l = none) →
        Gives (.seedEnd t k slot) s (s.dev.putSeed
          { y with links := y.links.map (fun l => { l with fin := some ⟨3, 0, l.len⟩, wb := true }) })) ∧
      (∀ (l : Desc) (f : SFault), y.links = [l] → y.fault = some (0, f) → y.stripsDone = true →
        (∀ z ∈ s.dev.seeds, z.tiller = sd.tiller → z.thread = sd.thread → z.same sd = true) →
        sd.tiller = t → sd.thread = k →
        Does (.seedEnd t k slot) s (fun e =>
          e.seeds = (s.dev.putSeed { y with links := [{ l with fin := some ⟨4, f.code, f.lo⟩, fault := some f, wb := true }] }).seeds ∧
          ((e.thread t k).sfr.get {} l.slot).id.getLsbD 63 = true ∧
          ((e.thread t k).sfr.get {} l.slot).idx = BitVec.ofNat 64 (f.hi * 2 ^ 32 + f.lo))) ∧
      (sd.stop ≠ 0 → sd.isOpen = false → y.fault = none → y.stripsDone = false → y.strips = [] → s.dev.cmdDrained y = true →
        s.dev.faultFirst y = false →
        Gives (.seedEnd t k slot) s (s.dev.putSeed { y with links := y.links.map (fun l => { l with
          fin := some ⟨if sd.stop = 1 then 2 else 6, if sd.stop = 1 then 0 else 0x2A, y.notDone / 4 ^ l.kdot⟩, wb := true }) }))) ∧
    (∀ (slot : Fin 8) (sd : Seed) (l : Desc) (f : SEnd), s.dev.seedAt t k slot = some sd → sd.links = [l] →
      l.slot = slot.val → l.gone = false → l.fin = some f → sd.cvuOf = none →
      (∀ j : Fin 4, (s.dev.thread t j).park = .none) →
      Does (.seedWritebackAck t k slot) s (fun e =>
        (f.state = 3 → fEVT l.ctrl = true → (e.thread t k).sdone.getLsbD slot = true) ∧
        (f.state = 4 → (e.thread t k).sfault.getLsbD slot = true) ∧
        e.seeds = (s.dev.dropSeed { sd with links := [{ l with gone := true }] }).seeds))

/-- Strips (R159, R211 to R216, R221 to R227): the strip that starts is the one the rotation picks, or where the tiller
has none of its own one that it was granted; a fault report and a
partial reach the stook once; a strip that ends leaves the seed's list and is counted; the next op of a combine is
formed; a tiller asks for work and an arbiter grants a strip of a seed to it. The model's choices here: log entries
4, 31, 34, 35, 36 and 155. -/
def Obligations.StripLife : Prop :=
  ∀ (s : State),
    (∀ (t : Fin 96) (sd : Seed) (p : Nat × Bool) (r : Strip), s.dev.tillerOn t = true → s.dev.pipeFrozen t = false →
      s.dev.inProgress t < 2 → s.dev.nextOwn t = some (sd, p) → ∀ y : Seed,
      y = { sd with links := sd.links.map (fun l => { l with posted := false }) } → (y.take p t true).stripOf p.1 p.2 = some r →
      Gives (.stripStart t) s (s.dev.settleFreeze
        (((((s.dev.landQueued sd.same).modTiller t (fun z => { z with served := sd.thread })).putSeed (y.take p t true))).runStrip
          (y.take p t true) r))) ∧
    (∀ (t : Fin 96) (r : Strip) (sd : Seed) (pre post : List Seed) (us vs : List Strip), s.dev.tillerOn t = true →
      s.dev.pipeFrozen t = false → s.dev.inProgress t < 2 → s.dev.nextOwn t = none → s.dev.seeds = pre ++ sd :: post →
      (∀ y ∈ pre, ∀ u ∈ y.strips, u.tiller = t → u.started = true ∨ u.abandoned = true) → sd.strips = us ++ r :: vs →
      (∀ u ∈ us, u.tiller = t → u.started = true ∨ u.abandoned = true) → r.tiller = t → r.started = false → r.abandoned = false →
      Gives (.stripStart t) s (s.dev.settleFreeze (s.dev.runStrip sd r))) ∧
    (∀ (t : Fin 96) (k : Fin 4) (slot : Fin 8) (n : Nat) (q : Bool) (sd : Seed) (r : Strip),
      s.dev.seedAt t k slot = some sd → sd.stripOf n q = some r →
      (∀ l f, r.fault = some (l, f) → r.reported = false →
        Gives (.stripFaultReport t k slot n q) s (s.dev.putSeed ((sd.putStrip { r with reported := true }).report l f))) ∧
      (∀ pv, q = false → r.started = true → r.reported = false → r.fault = none → r.abandoned = false →
        sd.combines = true → sd.find = false → r.part = some pv → SMap.find sd.parts n = none →
        Gives (.stripPartialArrive t k slot n) s (s.dev.putSeed
          { sd.putStrip { r with reported := true } with parts := sd.parts.put n pv })) ∧
      (r.started = true → r.fault = none → r.abandoned = false → r.reported = true → sd.cvuOf = none → r.writes = [] →
        s.dev.pipeFrozen r.tiller = false → q = false → (∀ j : Fin 4, (s.dev.thread r.tiller j).park = .none) →
        Does (.stripEnd t k slot n q) s (fun e =>
          e.seeds = (s.dev.putSeed { sd with strips := sd.strips.filter (fun y => !(y.k == n && y.pass2 == q)),
                                             done1 := n :: sd.done1 }).seeds ∧ e.mem = s.dev.mem ∧
          (sd.tiller = r.tiller → r.tiller < 96 →
            e.obj 0x4210 (sd.tiller + 1) = satAdd max64 (s.dev.obj 0x4210 (sd.tiller + 1)) 1)))) ∧
    (∀ (t : Fin 96) (k : Fin 4) (slot : Fin 8) (sd : Seed) (l : Desc) (a n : Nat) (x y : PVal),
      s.dev.seedAt t k slot = some sd → sd.opToForm = some (a, n) → sd.links.getLast? = some l →
      sd.nodeVal a (Seed.leftOf n) = some x → sd.nodeVal (a + Seed.leftOf n) (n - Seed.leftOf n) = some y →
      sd.scan = false → trapCause l.amode (combineP (redKind sd.lastOp) l.words.td l.mode x y).2 = 0 →
      Gives (.combineOpDone t k slot) s (s.dev.putSeed
        (({ sd with nodes := sd.nodes.put (a * 2 ^ 32 + n) (combineP (redKind sd.lastOp) l.words.td l.mode x y).1 }).addFlags
          (sd.links.length - 1) (combineP (redKind sd.lastOp) l.words.td l.mode x y).2))) ∧
    (∀ t : Fin 96, Gives (.gleanRequest t) s (s.dev.modTiller t (fun y => { y with glreq := s.dev.mayRequest t }))) ∧
    (∀ (q : Fin 4) (t : Fin 96) (sd : Seed) (p : Nat × Bool), (s.dev.tiller t).glreq = true → s.dev.mayRequest t = true →
      t.val / 24 = q.val → s.dev.arbiterFor t = some q.val → s.dev.grantable t q = some (sd, p) →
      (∀ u : Fin 96, u ≠ t → (s.dev.tiller u).glreq = false) →
      Does (.gleanGrant q) s (fun e =>
        e.seeds = (s.dev.putSeed (sd.take p t false)).seeds ∧ (e.tiller t).glreq = false ∧
        (e.tiller t).glfrom = sd.tiller ∧ e.glast.get 95 q = t))


/-! The queue, reset, and what holds of every command. -/

/-- With command `c` at the front of the queue, a step is `c` on the state whose queue is the rest; on an empty queue
one tick passes and the queue stays empty (log entry 2 of the model). -/
def Obligations.StepRunsTheFront : Prop :=
  (∀ (s : State) (c : Instr) (q : List Instr),
    step { s with pending := c :: q } = exec c { s with pending := q }) ∧
  (∀ s : State, s.pending = [] → ∃ e, step s = .next { s with dev := e })

/-- No command ends in a fault or a refusal, and none touches the queue. The model's choices here: log entry 14. -/
def Obligations.EveryCommandCompletes : Prop :=
  ∀ (c : Instr) (s : State), ∃ e, exec c s = .next { s with dev := e }

/-- The state after power-on reset: the queue is empty, every domain but PD00 is OFF, every thread is STOPPED, no seed
lives, every memory byte reads zero, no port or furrow is enabled, and objects hold their cold defaults. The model's
choices here: log entries 8 and 11. -/
def Obligations.ResetState : Prop :=
  State.reset.pending = [] ∧ State.reset.dev.mem.wf = true ∧
  (∀ k, State.reset.dev.domOn k = (k == 0)) ∧
  (∀ (t : Fin 96) (k : Fin 4), (State.reset.dev.thread t k).st = .stopped ∧ State.reset.dev.tillerOn t = false) ∧
  State.reset.dev.seeds = [] ∧ (∀ c, State.reset.dev.mem.byte? c = some 0) ∧
  (∀ p, (State.reset.dev.port p).st = .disabled) ∧ (∀ f, (State.reset.dev.furrow f).st = .disabled) ∧
  (∀ i s, State.reset.dev.obj i s = Dev.objCold i s) ∧ (∀ i s, State.reset.dev.version i s = 0) ∧
  State.reset.dev.obj 0x1011 0 = 10000 ∧ State.reset.dev.obj 0x4200 1 = 3 ∧ State.reset.dev.obj 0x6010 1 = 24

/-- The memories keep their canonical form through every step: cells and syndromes rise strictly and no listed byte is
zero. The model's choices here: log entry 11. -/
def Obligations.MemoryStaysCanonical : Prop :=
  ∀ s s' : State, s.dev.mem.wf = true → step s = .next s' → s'.dev.mem.wf = true

/-! Memory. -/

/-- A write of bytes to distinct cells (R297, R299): where every granule reads, or is written whole, every byte is
written and reads back, and every other byte reads as before; a part of an uncorrectable granule is discarded. The
model's choices here: log entry 11. -/
def Obligations.WriteThenRead : Prop :=
  ∀ (m : Mem) (ps : List (Nat × W8)), m.wf = true → (ps.map Prod.fst).Nodup →
    ((∀ p ∈ ps, m.byte? p.1 ≠ none ∨ ∀ i < 8, p.1 / 8 * 8 + i ∈ ps.map Prod.fst) →
      (m.write ps).2 = [] ∧ (m.write ps).1.wf = true ∧ (∀ p ∈ ps, (m.write ps).1.byte? p.1 = some p.2) ∧
      ∀ c, c ∉ ps.map Prod.fst → (m.write ps).1.byte? c = m.byte? c) ∧
    (∀ g, (∀ p ∈ ps, p.1 / 8 = g) → ps ≠ [] → m.byte? (8 * g) = none → ps.length < 8 →
      (m.write ps).1 = m ∧ (m.write ps).2 = ps.map Prod.fst)

/-- The three maps of R267 to R269, and that each sends the lines of a stripe one to one to the banks of its window, in
the row of the stripe's number (R270): 1,536 lines over 96 slices of 16 banks, 384 over the 24 slices of a quadrant,
2,048 over 8 stacks of 16 channels of 16 banks. -/
def Obligations.InterleaveIsOneToOne : Prop :=
  (∀ r < 2048, (∀ p < 1536, ∀ y < 64, ∃ q f : Nat, f = (r % 512) ^^^ (r / 512 % 4) ∧
      q = 512 * ((p / 512 + r) % 3) + ((p % 512) ^^^ f) ∧
      (granaryGlobal ((1536 * r + p) * 64 + y)) = ⟨q % 96, q / 96, r⟩ ∧ q / 96 < 16) ∧
    ∀ p < 1536, ∀ q < 1536, granaryGlobal ((1536 * r + p) * 64) = granaryGlobal ((1536 * r + q) * 64) → p = q) ∧
  (∀ j < 4, ∀ r < 2048, (∀ p < 384, ∀ y < 64, ∃ q f : Nat, f = (r % 128) ^^^ (r / 128 % 16) ∧
      q = 128 * ((p / 128 + r) % 3) + ((p % 128) ^^^ f) ∧
      (granaryQuadrant j ((384 * r + p) * 64 + y)) = ⟨24 * j + q % 24, q / 24, r⟩ ∧ q / 24 < 16) ∧
    ∀ p < 384, ∀ q < 384, granaryQuadrant j ((384 * r + p) * 64) = granaryQuadrant j ((384 * r + q) * 64) → p = q) ∧
  (∀ r < 262144, (∀ p < 2048, ∀ y < 64, ∃ q : Nat, q = p ^^^ ((r % 2048) ^^^ (r / 2048 % 128)) ∧
      (loamCoord ((2048 * r + p) * 64 + y)) = ⟨q % 8, q / 8 % 16, q / 128 % 16, r⟩ ∧ q < 2048) ∧
    ∀ p < 2048, ∀ q < 2048, loamCoord ((2048 * r + p) * 64) = loamCoord ((2048 * r + q) * 64) → p = q)

/-- Invalidation and upkeep (R272, R273, R297, R300, R326 to R329, R595). A write of XI_REQ removes from every TLB the
entries its operation names and no other; a thread's request names its own partition, and its ALL acts as PARTITION.
The low half is held for the originator. XI_SYNC answers zero, once no access that was translated through an entry its
reader removed is left to perform, among them every entry of a store buffer. A write-back stores the corrected
granule; a scrub read of a line moves the scrubber on, changes no byte, and queues a write-back of what it corrects.
The model's choices here: log entries 54, 55, 56, 57 and 59. -/
def Obligations.InvalidationAndUpkeep : Prop :=
  ∀ (s : State),
    (∀ (w : Agent) (q : Fin 4) (part : BitVec 4) (asid : BitVec 12) (vpn : BitVec 36) (pn va who : Nat), w.Reaches s.dev →
      who = (w.orig s.dev).copy →
      s.dev.domOn (Dev.granDom q) = true → va = vpn.toNat * 4096 →
      pn = (match w with | .thread t _ => s.dev.obj 0x6100 (t + 1) % 16 | _ => part.toNat) →
      Gives (.xiVa w q part asid vpn) s (w.ends s.dev (s.dev.keepEntries who (fun e =>
        !(e.part == pn && (e.asid == asid.toNat || e.glob) && e.va == va - va % e.size)))) ∧
      Gives (.xiVaAnyAsid w q part vpn) s (w.ends s.dev (s.dev.keepEntries who (fun e =>
        !(e.part == pn && e.va == va - va % e.size)))) ∧
      Gives (.xiAsid w q part asid) s (w.ends s.dev (s.dev.keepEntries who (fun e =>
        !(e.part == pn && e.asid == asid.toNat && !e.glob)))) ∧
      Gives (.xiPartition w q part) s (w.ends s.dev (s.dev.keepEntries who (fun e => e.part != pn))) ∧
      Gives (.xiAll w q) s (w.ends s.dev (s.dev.keepEntries who (fun e => !w.isMaster && e.part != pn))) ∧
      ∀ v : BitVec 32, Gives (.xiReqLowHalf w q v) s (w.ends s.dev
        { s.dev with xiLow := s.dev.xiLow.put (512 * q + (w.orig s.dev).copy) v })) ∧
    (∀ q : Fin 4, s.dev.domOn (Dev.granDom q) = true →
      (Agent.Reaches s.dev .host →
        (s.dev.syncing Orig.host.copy = false → Gives (.xiSync .host q) s (s.dev.emit (.completion true (List.replicate 8 0)))) ∧
        (s.dev.syncing Orig.host.copy = true → Gives (.xiSync .host q) s s.dev)) ∧
      (Agent.Reaches s.dev .debug →
        (s.dev.syncing (Orig.copy .debug) = false → Gives (.xiSync .debug q) s (s.dev.dbgEnd (.ok 0))) ∧
        (s.dev.syncing (Orig.copy .debug) = true → Gives (.xiSync .debug q) s s.dev)) ∧
      (∀ (t : Fin 96) (k : Fin 4) (x : Thread) (op : MemOp), x = s.dev.thread t k → s.dev.tillerOn t = true →
        x.st = .parked → x.park = .ldx op → op.pa = xiAddr q + 8 → op.size = 8 → x.sb = [] → x.priv = true →
        x.dbg.busy = false → x.dbg.haltReq = 0 →
        (s.dev.syncing (4 * t + k) = false →
          Does (.xiSync (.thread t k) q) s (fun e => (e.thread t k).st = .ready ∧ (e.thread t k).park = .none ∧
            (e.thread t k).g = (x.wrPair op.reg 0).g ∧ e.mem = s.dev.mem)) ∧
        (s.dev.syncing (4 * t + k) = true → Gives (.xiSync (.thread t k) q) s s.dev))) ∧
    (∀ (t : Fin 96) (k : Fin 4) (x : Thread) (b : SbEntry) (who : Nat) (keep : TlbEntry → Bool) (g : TlbEntry),
      x = s.dev.thread t k → (4 * t.val + k.val) ∈ s.dev.threads.map Prod.fst → b ∈ x.sb → g ∈ s.dev.stlb.get [] (t / 24) →
      keep g = false → overlaps b.pa b.size g.pa g.size = true → (s.dev.keepEntries who keep).syncing who = true) ∧
    Gives .loamRefresh s s.dev ∧ Gives .loamWriteQueueDrain s s.dev ∧
    (∀ (g i : Nat) (r : List Nat), s.dev.mem.wf = true → s.dev.mem.fixes = g :: r → s.dev.mem.syndOf (8 * g) = .data i → i < 64 →
      Does .correctedWriteback s (fun e => s.dev.SameMemBut e [] ∧ e.mem.syndOf (8 * g) = .clean ∧ g ∉ e.mem.fixes)) ∧
    (∀ (u : Fin 12) (pa : Nat) (cs : List Nat),
      pa = (if u.val < 4 then Dev.granScrubPa u (s.dev.scrub.get 0 u) else Dev.loamScrubPa (u - 4) (s.dev.scrub.get 0 u)) →
      s.dev.domOn (49 + u) = true → s.dev.obj (if u.val < 4 then 0x6010 else 0x6011) (if u.val < 4 then u + 1 else u - 3) ≠ 0 →
      Dev.cellsOf pa 64 = some cs → s.dev.scrub.get 0 u < (if u.val < 4 then 786432 else 67108864) →
      Does (.patrolScrubRead u) s (fun e =>
        e.scrub.get 0 u = (s.dev.scrub.get 0 u + 1) % (if u.val < 4 then 786432 else 67108864) ∧
        e.mem.cells = s.dev.mem.cells ∧ e.mem.synd = s.dev.mem.synd ∧ (∀ g ∈ s.dev.mem.singles cs, g ∈ e.mem.fixes) ∧
        (s.dev.mem.firstBad cs ≠ none → e.obj 0x6004 1 = pa - pa % 64 ∧ e.obj 0x6004 3 = 3)))

/-! The Piste. -/

/-- A slot's life (R246, R249, R252, R254): a write of ADMIT = 1 runs the checks and admits the slot with its cost, or
refuses it with the reason and changes nothing else; a write of 0 withdraws it; the withdrawal ends when nothing of
the slot is left; a complete window enters the run queue; dispatch starts the oldest run; commit runs its seeds in
order, frees its window buffer and leaves its result to be fetched. The model's choices here: log entries 61, 66 and
67. -/
def Obligations.PisteSlots : Prop :=
  ∀ (s : State) (e : Fin 4) (n : Fin 16) (x : PSlot), x = s.dev.pslot e n →
    (∀ (ses : Fin 6) (seq : BitVec 32) (f : BitVec 12), s.dev.Accepts ses seq 0x5100 (1 + 16 * e + n) 4 →
      (s.dev.admitCheck e n f.toNat = (0, 0, 0) →
        Does (.pisteAdmit ses seq e n f) s (fun d => d.Answered ses seq .ok ∧
          (d.pslot e n).st = .admitted ∧ (d.pslot e n).reason = 0 ∧ (d.pslot e n).cycles = x.cost ∧
          (d.pslot e n).furrow = f.toNat ∧ s.dev.Newer d 0x5100 (1 + 16 * e + n) ∧ s.dev.SameCore d)) ∧
      (∀ r j c, s.dev.admitCheck e n f.toNat = (r, j, c) → r ≠ 0 →
        Does (.pisteAdmit ses seq e n f) s (fun d => d.Answered ses seq .ok ∧
          d.pslot e n = { x with st := .refused, reason := BitVec.ofNat 4 r, failJ := BitVec.ofNat 4 j, fcode := BitVec.ofNat 6 c } ∧
          s.dev.SameCore d)) ∧
      (x.st = .admitted → Does (.pisteWithdraw ses seq e n) s (fun d => d.Answered ses seq .ok ∧
        d.pslot e n = { x with st := .withdrawing })) ∧
      (x.st = .refused → Does (.pisteWithdraw ses seq e n) s (fun d => d.Answered ses seq .ok ∧
        d.pslot e n = { x with st := .empty }))) ∧
    (x.st = .withdrawing → s.dev.slotDrained e n = true →
      Gives (.pisteWithdrawComplete e n) s (s.dev.setPslot e n { x with st := .empty })) ∧
    (∀ (f : Fin 4096) (a : Asm) (c : Closed) (b : Bool), s.dev.readyWin f = some (a, c) → a.buf = some b →
      s.dev.frozen (40 + f / 512) = false → (s.dev.furrow f).chainOn = false → (s.dev.furrow f).eng = e →
      Does (.pisteWindowQueue f) s (fun d =>
        (d.engine e).queue = (s.dev.engine e).queue ++ [⟨(s.dev.furrow f).slot, b, c.mono, false, a.late⟩] ∧
        (d.furrow f).wins = (s.dev.furrow f).wins.filter (fun y => y.id != a.id) ∧
        (d.furrow f).counter 12 = satAdd max64 ((s.dev.furrow f).counter 12) 1)) ∧
    (∀ (r : PRun) (q : List PRun), (s.dev.engine e).running = none → (s.dev.engine e).queue = r :: q →
      s.dev.frozen (48 + e) = false → s.dev.domOn (Dev.pisteDom e) = true →
      Gives (.pisteDispatch e) s (s.dev.setEngine e
        { s.dev.engine e with running := some r, queue := q, last := BitVec.ofNat 4 r.slot })) ∧
    (∀ (r : PRun) (d₁ : Dev) (c : Cond), (s.dev.engine e).running = some r → r.slot = n → s.dev.frozen (48 + e) = false →
      (List.range x.nseed).foldl (fun (acc : Dev × Cond) j =>
        ((acc.1.pisteSeed e (Dev.pisteLink x e r.buf (x.dwords j))).1,
          acc.2 ||| (acc.1.pisteSeed e (Dev.pisteLink x e r.buf (x.dwords j))).2)) (s.dev, 0) = (d₁, c) →
      (d₁.engine e).running = some r → r.ue = false →
      Does (.pisteCommit e) s (fun d => d.mem = d₁.mem ∧
        (d.engine e).running = none ∧ (d.engine e).done = (d₁.engine e).done ++ [r] ∧
        (d.pslot e n).runs = (d₁.pslot e n).runs + 1 ∧ (d.pslot e n).wbusy r.buf = false ∧
        (d.pslot e n).flags = c &&& 0x7F ∧
        d.obj 0x5103 (1 + 16 * e + n) = satAdd max64 (d₁.obj 0x5103 (1 + 16 * e + n)) 1))

/-- A result leaves, and deadlines (R253, R256, R257, R263 to R265): a result of an output furrow that is not ENABLED,
or whose port is not UP, is not sent, and its run is done with; any other is fetched and its frame enters the port's
express queue; the head of that queue leaves through a port that is UP and not paused, and counts as sent then; one
on a port that is not UP is discarded, counts in C3, and is a deadline miss; an engine claims and releases its Almanac
unit; deadlines that have passed are counted once each and removed, and the event is raised. The model's choices
here: log entry 68. -/
def Obligations.PisteResultsAndDeadlines : Prop :=
  ∀ (s : State) (e : Fin 4),
    (∀ (r : PRun) (q : List PRun) (f : Nat) (x : Furrow), (s.dev.engine e).done = r :: q →
      f = (s.dev.furrow (s.dev.pslot e r.slot).furrow).out → x = s.dev.furrow f → s.dev.frozen (40 + f / 512) = false →
      s.dev.chainReady f = true →
      (x.st ≠ .enabled →
        Does (.pisteResultFetch e) s (fun d => (d.engine e).done = q ∧ d.furrows = s.dev.furrows ∧ d.ports = s.dev.ports ∧
          d.out = s.dev.out)) ∧
      (x.st = .enabled → s.dev.portUp x.portNo = false →
        Does (.pisteResultFetch e) s (fun d => (d.engine e).done = q ∧ d.furrow f = { x.bump 3 1 with P := x.P + 1 } ∧
          d.ports = s.dev.ports ∧ d.out = s.dev.out)) ∧
      (∀ (d₁ d₂ d₃ : Dev) (data tpl : List W8) (frs : List (List W8)), x.st = .enabled → s.dev.portUp x.portNo = true →
        (s.dev.setEngine e { s.dev.engine e with done := q }).egressRead f
          (Dev.storeBase e + (s.dev.pslot e r.slot).rbuf r.buf) (s.dev.pslot e r.slot).rlenN = (d₁, some data) →
        d₁.egressRead f x.entry x.hlen = (d₂, some tpl) → d₂.resultFrames f tpl data = (d₃, frs) →
        Does (.pisteResultFetch e) s (fun d => d.mem = d₃.mem ∧ d.out = d₃.out ∧
          (d.port x.portNo).express = (d₃.port x.portNo).express ++ frs.map (fun b => ⟨f, e, r.slot, r.buf, r.at_, r.missed, b⟩) ∧
          d.furrow f = { d₃.furrow f with P := (d₃.furrow f).P + 1 }))) ∧
    (∀ (p : Fin 16) (q : ExpFrame) (r : List ExpFrame) (x : Port), x = s.dev.port p → x.express = q :: r →
      (r ≠ [] ∨ x.held = []) →
      (x.st = .up → x.paused = false → s.dev.obj 0x3030 (p + 1) < 2 ^ 31 →
        Does (.expressFrameSend p) s (fun d =>
          d.out = .frame p true q.bytes none :: s.dev.out ∧ (d.port p).express = r ∧
          (d.port p).frames.get 0 3 = satAdd max64 (x.frames.get 0 3) 1 ∧
          (d.furrow q.out).counter 1 = satAdd max64 ((s.dev.furrow q.out).counter 1) 1 ∧
          (d.furrow q.out).counter 2 = satAdd max64 ((s.dev.furrow q.out).counter 2) 1)) ∧
      (x.st = .up → x.paused = true → Gives (.expressFrameSend p) s s.dev) ∧
      (x.st ≠ .up → Does (.expressFrameSend p) s (fun d => d.out = s.dev.out ∧ (d.port p).express = r ∧
        (d.furrow q.out).counter 3 = satAdd max64 ((s.dev.furrow q.out).counter 3) 1 ∧
        (s.dev.obj 0x5106 (1 + 16 * q.engine + q.slot) ≠ 0 → q.missed = false →
          d.obj 0x5107 (1 + 16 * q.engine + q.slot) = satAdd max64 (s.dev.obj 0x5107 (1 + 16 * q.engine + q.slot)) 1)))) ∧
    (∀ (ses : Fin 6) (seq : BitVec 32) (u : Fin 8), s.dev.Accepts ses seq 0x5108 (e + 1) 1 →
      (s.dev.unitHolder u = 0 → s.dev.monitorUnit e = none →
        Does (.pisteDeadlineUnitClaim ses seq e u) s (fun d => d.Answered ses seq .ok ∧
          d.obj 0x5108 (e + 1) = u ∧ d.unitHolder u = 0x500 + e)) ∧
      (s.dev.unitHolder u ≠ 0 → s.dev.unitHolder u ≠ 0x500 + e →
        Does (.pisteDeadlineUnitClaim ses seq e u) s (fun d => d.Answered ses seq .conflict ∧
          d.objs = s.dev.objs ∧ d.alm = s.dev.alm ∧ d.dict.rclaims = s.dev.dict.rclaims)) ∧
      (s.dev.monitorUnit e = some u →
        Does (.pisteDeadlineUnitRelease ses seq e) s (fun d => d.Answered ses seq .ok ∧
          d.obj 0x5108 (e + 1) = 0xFF ∧ d.unitHolder u = 0 ∧ (d.ccUnit u).cfg = 0))) ∧
    (∀ (u : Nat) (p : PDeadline), s.dev.monitorUnit e = some u → (s.dev.engine e).deadlines = [p] → p.at_ ≤ s.dev.mono →
      Does (.deadlineMiss e) s (fun d =>
        (d.engine e).deadlines = [] ∧
        d.obj 0x5107 (1 + 16 * e + p.slot) = satAdd max64 (s.dev.obj 0x5107 (1 + 16 * e + p.slot)) 1 ∧
        d.oct 0x5109 (e + 1) = [BitVec.ofNat 8 p.slot, BitVec.ofNat 8 (b2n p.buf), 0, 0, 0, 0, 0, 0] ++ toLE 8 p.at_ ∧
        (s.dev.domOn 70 = true → (d.src (0x578 + e)).pend = true)))

/-! The Pelz dictionary. -/

/-- READ and WRITE of objects that only hold a value, and the sequence rule (R473 to R476, R482, R483, R493). A READ
answers the value and changes nothing but the session, its count and what is sent, where the balls and the rails are
read with the levels that the board gives (log entry 3); a WRITE in range stores the value, raises the version, and
changes no other object; one out of range changes no object; a tiller's partition is written where its threads are
STOPPED and no seed of it is in flight, and its micro-TLB empties (R309); a partition's stage-2 root is written with
the PARTITION invalidation, and answered once no access translated before is left (R310); a request repeated with the
number of the last one is not performed, and neither is one whose number is behind. -/
def Obligations.DictionaryObjects : Prop :=
  ∀ (s : State) (ses : Fin 6) (seq : BitVec 32),
    (∀ (i : BitVec 16) (n : BitVec 8) (m : Msg) (t : OTy) (c : Acc),
      m = { op := 0x01, seq := seq.toNat, index := i.toNat, sub := n.toNat } → s.dev.AsksFor ses m t c →
      Does (.read ses seq i n 0 0) s (fun e => s.dev.Told e ses m t c ∧ e = { s.dev with dict := e.dict, out := e.out })) ∧
    (∀ m : Msg, s.dev.sessionUp ses = true → (s.dev.session ses).performs m = true →
      (m = { op := 0x01, seq := seq.toNat, index := 0xA001 } → ∃ b, Does (.read ses seq 0xA001 0 0 0) s (fun e =>
        (e.session ses).resp = Resp.encode m
          { status := .ok, ver := s.dev.version 0xA001 0, len := 4, val := toLE 4 (s.dev.gpioLevels b) })) ∧
      (m = { op := 0x01, seq := seq.toNat, index := 0x9040, sub := 1 } → ∃ b < 2, Does (.read ses seq 0x9040 1 0 0) s (fun e =>
        (e.session ses).resp = Resp.encode m
          { status := .ok, ver := s.dev.version 0x9040 1, len := 1
            val := toLE 1 (b2n s.dev.hl.hlRail + b2n s.dev.hl.coreRail * 2 + b * 4) }))) ∧
    (∀ p ∈ [(0x1011, 0, 2), (0x1112, 1, 2), (0x2002, 0, 1), (0x2004, 0, 4), (0x2060, 0, 1), (0x3012, 1, 2), (0x3300, 1, 8),
        (0x3402, 3, 4), (0x4200, 7, 1), (0x4201, 2, 1), (0x5102, 5, 1), (0x6010, 4, 2), (0x9031, 0, 1)],
      ∀ (v : Nat) (last : Bool), v < 256 ^ p.2.2 → s.dev.Accepts ses seq p.1 p.2.1 p.2.2 →
      (Dev.inRange p.1 p.2.1 v = true →
        Does (.write ses seq (BitVec.ofNat 16 p.1) (BitVec.ofNat 8 p.2.1) none last 0 (toLE p.2.2 v)) s (fun e =>
          e.Answered ses seq .ok ∧ e.obj p.1 p.2.1 = v ∧ s.dev.Newer e p.1 p.2.1 ∧ s.dev.SameCore e ∧
          s.dev.SameObjBut e (fun i n => i = p.1 ∧ n = p.2.1))) ∧
      (Dev.inRange p.1 p.2.1 v = false →
        Does (.write ses seq (BitVec.ofNat 16 p.1) (BitVec.ofNat 8 p.2.1) none last 0 (toLE p.2.2 v)) s (fun e =>
          e.Answered ses seq .range ∧ e.objs = s.dev.objs ∧ s.dev.SameCore e ∧
          e.version p.1 p.2.1 = s.dev.version p.1 p.2.1))) ∧
    (∀ (tl : Fin 96) (v : BitVec 8) (last : Bool) (c : Instr), s.dev.Accepts ses seq 0x6100 (tl + 1) 1 →
      c = .write ses seq 0x6100 (BitVec.ofNat 8 (tl + 1)) none last 0 [v] →
      (v.toNat < 16 → (∀ k : Fin 4, (s.dev.thread tl k).st = .stopped) →
        (∀ x ∈ s.dev.seeds, x.tiller = tl → x.links.all (·.gone) = true) → Does c s (fun e =>
          e.Answered ses seq .ok ∧ e.obj 0x6100 (tl + 1) = v.toNat ∧ s.dev.Newer e 0x6100 (tl + 1) ∧
          e.tiller tl = { s.dev.tiller tl with utlb := [] } ∧ e.threads = s.dev.threads ∧ e.mem = s.dev.mem ∧
          e.doms = s.dev.doms ∧ s.dev.SameObjBut e (fun i n => i = 0x6100 ∧ n = tl + 1))) ∧
      (v.toNat < 16 → ((∃ k : Fin 4, (s.dev.thread tl k).st ≠ .stopped) ∨
          ∃ x ∈ s.dev.seeds, x.tiller = tl ∧ x.links.all (·.gone) = false) → Does c s (fun e =>
        e.Answered ses seq .busy ∧ e.objs = s.dev.objs ∧ s.dev.SameCore e)) ∧
      (16 ≤ v.toNat → Does c s (fun e => e.Answered ses seq .range ∧ e.objs = s.dev.objs ∧ s.dev.SameCore e))) ∧
    (∀ (p : Fin 16) (v : BitVec 64) (last : Bool) (c : Instr) (d₁ : Dev), s.dev.Accepts ses seq 0x6110 (p + 1) 8 →
      c = .write ses seq 0x6110 (BitVec.ofNat 8 (p + 1)) none last 0 (toLE 8 v.toNat) →
      d₁ = s.dev.keepEntries (500 + p) (fun e => e.part != p.val) →
      (v.toNat < 2 ^ 46 → fld v.toNat 11 2 = 0 → fld v.toNat 1 0 ≠ 3 →
        (d₁.syncing (500 + p) = false → Does c s (fun e => e.Answered ses seq .ok ∧ s.dev.Newer e 0x6110 (p + 1))) ∧
        (d₁.syncing (500 + p) = true → Does c s (fun e => e.dict.busy.isSome = true ∧
          (e.session ses).seq = (s.dev.session ses).seq ∧ (e.session ses).resp = (s.dev.session ses).resp)) ∧
        Does c s (fun e => e.obj 0x6110 (p + 1) = v.toNat ∧ e.stlb = d₁.stlb ∧ e.tillers = d₁.tillers ∧ e.threads = d₁.threads ∧
          e.mem = s.dev.mem ∧ e.doms = s.dev.doms ∧
          s.dev.SameObjBut e (fun i n => (i = 0x6110 ∧ n = p + 1) ∨ i = 0x6121))) ∧
      (2 ^ 46 ≤ v.toNat ∨ fld v.toNat 11 2 ≠ 0 ∨ fld v.toNat 1 0 = 3 → Does c s (fun e =>
        e.Answered ses seq .range ∧ e.objs = s.dev.objs ∧ s.dev.SameCore e))) ∧
    (s.dev.sessionUp ses = true →
      ((s.dev.session ses).seq = some seq ∨
        (∃ k, (s.dev.session ses).seq = some k ∧ 2 ^ 31 < (seq - k).toNat) →
      ∀ (i : BitVec 16) (n : BitVec 8) (last : Bool) (off : BitVec 32) (val : List W8),
        Does (.write ses seq i n none last off val) s (fun e =>
          e.session ses = s.dev.session ses ∧ e = { s.dev with dict := e.dict, out := e.out } ∧
          e.dict.vers = s.dev.dict.vers)))

/-- WRITEV (R484): where an entry fails the checks, none is applied, and the answer has that entry's status and number;
where none fails, the entries are applied in order. A value of more than 1 024 bytes, or one that no entries fill
exactly, is answered TYPE. The model's choices here: log entry 117. -/
def Obligations.WriteMany : Prop :=
  ∀ (s : State) (ses : Fin 6) (seq : BitVec 32) (val : List W8) (d₀ : Dev), s.dev.Serves ses seq →
    d₀ = s.dev.asked ses (s.dev.bare ses) →
    (1024 < val.length ∨ Dev.entries 32 val = none → Does (.writev ses seq val) s (fun e => e.Answered ses seq .type ∧
      e = { s.dev with dict := e.dict, out := e.out } ∧ e.dict.vers = s.dev.dict.vers)) ∧
    (∀ es, val.length ≤ 1024 → Dev.entries 32 val = some es →
      (∀ st n, d₀.checkEntries ses (Dev.domEntries es) d₀ 0 es = some (st, n) →
        Does (.writev ses seq val) s (fun e => e.Answered ses seq st ∧
          (e.session ses).resp[3]? = some (BitVec.ofNat 8 n) ∧
          e = { s.dev with dict := e.dict, out := e.out } ∧ e.dict.vers = s.dev.dict.vers)) ∧
      (∀ d₁, d₀.checkEntries ses (Dev.domEntries es) d₀ 0 es = none →
        Dev.applyEntries ses (Dev.domEntries es) d₀ es = (d₁, none) → d₁.dict.busy = none →
        (SMap.find d₁.dict.sessions ses).isSome = true →
        Does (.writev ses seq val) s (fun e => e.Answered ses seq .ok ∧ e.objs = d₁.objs ∧ e.octs = d₁.octs ∧
          e.mem = d₁.mem ∧ e.doms = d₁.doms ∧ e.dict.vers = d₁.dict.vers)))

/-- Transports (R485 to R490, R493, R500): GO performs the message of the mailbox's request area, puts the answer into
the response area and ends in DONE; a message that runs past the area is answered TYPE; RST ends the session; both are
ignored while the mailbox is BUSY. A plain Mbaros frame addressed to the FV96 is a message of the Mbaros session: its
answer goes back with the addresses exchanged and behind its own outer header, and its route is kept; a frame whose
outer header is wrong, or whose ICV is, or whose COUNTER is no higher than the last, is counted and dropped. A request
that comes while one of its session is pending is dropped and counted, and one that finds the core in an operation
waits. The model's choices here: log entries 13, 107, 108 and 109. -/
def Obligations.Transports : Prop :=
  ∀ (s : State) (m : Msg) (bs : List W8),
    bs = (List.range 0x800).map (fun i => s.dev.dict.mbReq.get 0 i) →
    m = { Msg.ofBytes (bs.take 20) with val := slice bs 20 (Msg.ofBytes (bs.take 20)).len } →
    (s.dev.hostReaches = true → s.dev.pcie.d3 = false →
      (s.dev.dict.mbStat ≠ 1 → Gives .mbRst s (s.dev.endSession 0)) ∧
      (s.dev.dict.mbStat = 1 → Gives .mbRst s s.dev ∧ Gives .mbGo s s.dev)) ∧
    (s.dev.sessionUp 0 = true → s.dev.CoreFree 0 → s.dev.dict.mbStat ≠ 1 → 0x800 < 20 + m.len →
      (s.dev.session 0).performs m = true →
      Does .mbGo s (fun e => e.dict.mbStat = 2 ∧ e.dict.mbResp.get 0 2 = BitVec.ofNat 8 Status.type.code ∧
        (e.session 0).seq = some (BitVec.ofNat 32 m.seq) ∧ e = { s.dev with dict := e.dict })) ∧
    (∀ t c, 20 + m.len ≤ 0x800 → s.dev.AsksFor 0 m t c → s.dev.dict.mbStat ≠ 1 →
      Does .mbGo s (fun e => s.dev.Told e 0 m t c ∧ e.dict.mbStat = 2 ∧
        e.dict.mbResp = (List.range (e.session 0).resp.length).zip (e.session 0).resp ∧
        e = { s.dev with dict := e.dict })) ∧
    (∀ (ses : Fin 6) (seq : BitVec 32) (i : BitVec 16) (n : BitVec 8), s.dev.sessionUp ses = true → ses ≠ 0 →
      (s.dev.pendingReq ses = true → Gives (.read ses seq i n 0 0) s (s.dev.countPelz (s.dev.transport ses) 3)) ∧
      (s.dev.pendingReq ses = false → s.dev.dict.busy.isSome = true → Gives (.read ses seq i n 0 0) s
        { s.dev with dict := { s.dev.dict with waiting := s.dev.dict.waiting ++
          [⟨ses, none, { op := 0x01, seq := seq.toNat, index := i.toNat, sub := n.toNat }⟩] } })) ∧
    (∀ (fr : List W8) (o : Nat) (udp : Bool) (r : Route), s.dev.hl.por = false → s.dev.hl.mbClock = true →
      fr.take 6 = s.dev.octObj 0x1050 4 →
      ((s.dev.octObj 0x1050 1).any (· != 0) = false ∨ slice fr 6 6 = s.dev.octObj 0x1050 1) →
      pelzAt fr (s.dev.obj 0x1030 0) = some (o, udp) → r = ⟨16, udp, fr.take o⟩ →
      (outerAt fr o = none → Gives (.pelzFrame none fr true) s (s.dev.countPelz 2 4)) ∧
      (∀ x : Outer, outerAt fr o = some x → x.mode < 4 →
        ((x.opened (s.dev.dict.keys.get [] x.mode) udp fr).1 = false → Gives (.pelzFrame none fr true) s (s.dev.countPelz 2 4)) ∧
        (∀ (op c : Nat), (x.opened (s.dev.dict.keys.get [] x.mode) udp fr).1 = true → s.dev.hasKey x.mode = true →
          s.dev.role x.mode = 3 → op = ofBE ((x.opened (s.dev.dict.keys.get [] x.mode) udp fr).2.take 1) → 1 ≤ op → op ≤ 5 →
          SMap.find s.dev.dict.rxCtr x.mode = some c → x.ctr ≤ c → Gives (.pelzFrame none fr true) s (s.dev.countPelz 2 5))) ∧
      (∀ (x : Outer) (q : Msg) (t : OTy) (a : Acc), outerAt fr o = some x → x.mode = 0x80 → s.dev.obj 0x1050 2 = 0 →
        q = { Msg.ofBytes x.body with val := slice x.body 20 (Msg.ofBytes x.body).len } → (s.dev.fromSb r).AsksFor 5 q t a →
        Does (.pelzFrame none fr true) s (fun e => (s.dev.fromSb r).Told e 5 q t a ∧ (e.session 5).route = some r ∧
          e.dict.mbRoute = some r ∧ ∃ b, e.out = .mbaros b :: s.dev.out ∧ b.take 6 = slice fr 6 6 ∧
          slice b 6 6 = fr.take 6 ∧ slice b o 4 = [1, 0x80] ++ toBE 2 (e.session 5).resp.length ∧
          slice b (o + 16) (e.session 5).resp.length = (e.session 5).resp)))

/-- Ownership and keys (R492, R497, R498): the main host's heartbeat clears LAPSED and starts its time again; the time
running out sets it; a takeover is accepted only while LAPSED is 1 and OWNER 0, sets OWNER and drops the main host's
claims; a hand-back is accepted while OWNER is 1; a key write stores the key and ends the slot's session. The
model's choices here: log entry 121. -/
def Obligations.OwnershipAndKeys : Prop :=
  ∀ (s : State) (ses : Fin 6) (seq : BitVec 32),
    (∀ v : BitVec 32, s.dev.Accepts ses seq 0x1010 0 4 →
      Does (.mainHostHeartbeat ses seq v) s (fun e => e.Answered ses seq .ok ∧ e.dict.lapsed = false ∧
        e.dict.beatAt = s.dev.hl.time.toNat ∧ e.obj 0x1010 0 = v.toNat ∧ s.dev.SameCore e)) ∧
    (s.dev.dict.lapsed = false → s.dev.hl.por = false → s.dev.hl.dev ≠ .held →
      (s.dev.dict.beatAt + s.dev.obj 0x1011 0 * 4000 < s.dev.hl.time.toNat →
        Does .heartbeatLapse s (fun e => e.dict.lapsed = true ∧ e.dict.owner = s.dev.dict.owner ∧ s.dev.SameCore e)) ∧
      (s.dev.hl.time.toNat ≤ s.dev.dict.beatAt + s.dev.obj 0x1011 0 * 4000 → Gives .heartbeatLapse s s.dev)) ∧
    (s.dev.Accepts ses seq 0x1013 0 1 →
      (s.dev.dict.lapsed = true → s.dev.dict.owner = false →
        Does (.takeover ses seq) s (fun e => e.Answered ses seq .ok ∧ e.dict.owner = true ∧
          (∀ c ∈ e.dict.oclaims, s.dev.isSb c.session = true) ∧ s.dev.SameCore e)) ∧
      (s.dev.dict.lapsed = false ∨ s.dev.dict.owner = true →
        Does (.takeover ses seq) s (fun e => e.Answered ses seq .busy ∧ e.dict.owner = s.dev.dict.owner)) ∧
      (s.dev.dict.owner = true →
        Does (.handBack ses seq) s (fun e => e.Answered ses seq .ok ∧ e.dict.owner = false ∧
          (∀ c ∈ e.dict.oclaims, s.dev.isSb c.session = false) ∧ s.dev.SameCore e)) ∧
      (s.dev.dict.owner = false →
        Does (.handBack ses seq) s (fun e => e.Answered ses seq .busy ∧ e.dict.owner = false))) ∧
    (∀ (n : Fin 4) (key : List W8), key.length = 32 → s.dev.Accepts ses seq 0x1040 (n + 1) 32 →
      Does (.keyWrite ses seq n (.key key)) s (fun e =>
        e.hasKey n = key.any (· != 0) ∧ (key.any (· != 0) = true → e.dict.keys.get [] n = key) ∧
        (ses.val ≠ n + 1 → (e.session (n + 1)).seq = none ∧ e.Answered ses seq .ok) ∧ s.dev.SameCore e)) ∧
    (∀ (n : Fin 4) (v : W8), s.dev.Accepts ses seq 0x1041 (n + 1) 1 → ses.val ≠ n + 1 →
      (v.toNat ≤ 3 → s.dev.isSb ses = true ∨ (v ≠ 3 ∧ s.dev.role n ≠ 3) →
        Does (.keyWrite ses seq n (.role v)) s (fun e => e.role n = v.toNat ∧ (e.session (n + 1)).seq = none)) ∧
      (v.toNat ≤ 3 → s.dev.isSb ses = false → v = 3 ∨ s.dev.role n = 3 →
        Does (.keyWrite ses seq n (.role v)) s (fun e => e.Answered ses seq .denied ∧ e.dict.roles = s.dev.dict.roles)))

/-- Object claims (R499): OCLAIM holds the object for the lease, ORELEASE ends the session's own claim and no other's,
and claims whose lease has run out end. The claim table (R504 to R506): a free entry takes the holder; one held by
another is answered CONFLICT and nothing changes; a write of the same holder changes nothing; a release by the
master that may makes the entry free where the resource is not in use, one in use is answered BUSY, and one by
another master DENIED. The model's choices here: log entries 118, 119 and 120. -/
def Obligations.ObjectAndResourceClaims : Prop :=
  (∀ (s : State) (ses : Fin 6) (seq : BitVec 32) (i : BitVec 16) (n : BitVec 8), s.dev.Serves ses seq →
     (∀ (lease : BitVec 16) (ver : Option W16),
       (∃ a, s.dev.objGate ses i.toNat n.toNat false true (ver.map BitVec.toNat) = .ok a) →
       (100 ≤ lease.toNat → lease.toNat ≤ 60000 →
         (s.dev.dict.oclaims.filter (fun c => c.session == ses.val && c.obj != Dev.objKey i.toNat n.toNat &&
           decide (s.dev.hl.time.toNat < c.until_))).length < 64 →
         Does (.oclaim ses seq i n ver lease) s (fun e => e.Answered ses seq .ok ∧
           e.claimOn i.toNat n.toNat = some ⟨Dev.objKey i.toNat n.toNat, ses, s.dev.hl.time.toNat + 4000 * lease.toNat⟩ ∧
           s.dev.SameCore e ∧ e.objs = s.dev.objs)) ∧
       (lease.toNat < 100 ∨ 60000 < lease.toNat →
         Does (.oclaim ses seq i n ver lease) s (fun e => e.Answered ses seq .range ∧ e.dict.oclaims = s.dev.dict.oclaims))) ∧
     ((∃ a, s.dev.objGate ses i.toNat n.toNat false false none = .ok a) →
       (∀ c, s.dev.claimOn i.toNat n.toNat = some c → c.session = ses →
         Does (.orelease ses seq i n none) s (fun e => e.Answered ses seq .ok ∧ e.claimOn i.toNat n.toNat = none)) ∧
       ((∀ c, s.dev.claimOn i.toNat n.toNat = some c → c.session ≠ ses) →
         Does (.orelease ses seq i n none) s (fun e => e.Answered ses seq .denied ∧ e.dict.oclaims = s.dev.dict.oclaims))) ∧
     Gives .leaseExpire s { s.dev with dict := { s.dev.dict with
       oclaims := s.dev.dict.oclaims.filter (fun c => decide (s.dev.hl.time.toNat < c.until_)) } }) ∧
  (∀ (s : State) (ses : Fin 6) (seq : BitVec 32) (r : Resource) (h : BitVec 16) (i n cur : Nat),
     i = r.index → n = r.sub → cur = s.dev.holder i n → s.dev.Accepts ses seq i n 2 →
     (Dev.mayHold (Dev.Res.of i n) h.toNat = true → h ≠ 0 →
       (cur = 0 → Does (.resourceClaim ses seq r h) s (fun e => e.Answered ses seq .ok ∧ e.holder i n = h.toNat ∧
         s.dev.Newer e i n ∧ e.objs = s.dev.objs ∧ s.dev.SameCore e)) ∧
       (cur ≠ 0 → cur ≠ h.toNat → Does (.resourceClaim ses seq r h) s (fun e => e.Answered ses seq .conflict ∧
         e.dict.rclaims = s.dev.dict.rclaims ∧ e.version i n = s.dev.version i n)) ∧
       (cur = h.toNat → Does (.resourceClaim ses seq r h) s (fun e => e.Answered ses seq .ok ∧
         e.dict.rclaims = s.dev.dict.rclaims ∧ e.version i n = s.dev.version i n))) ∧
     (Dev.mayHold (Dev.Res.of i n) h.toNat = false → h ≠ 0 → Does (.resourceClaim ses seq r h) s (fun e =>
       e.Answered ses seq .range ∧ e.dict.rclaims = s.dev.dict.rclaims)) ∧
     (∀ k, k = cur / 256 → 1 ≤ k → k ≤ 3 →
       ((k = 2 → s.dev.isSb ses = true) → (k ≠ 2 → s.dev.configures ses = true) →
         (s.dev.resBusy (Dev.Res.of i n) = false → Does (.resourceRelease ses seq r) s (fun e => e.Answered ses seq .ok ∧
           e.holder i n = 0 ∧ s.dev.Newer e i n ∧ e.objs = s.dev.objs)) ∧
         (s.dev.resBusy (Dev.Res.of i n) = true → Does (.resourceRelease ses seq r) s (fun e => e.Answered ses seq .busy ∧
           e.dict.rclaims = s.dev.dict.rclaims))) ∧
       ((k = 2 ∧ s.dev.isSb ses = false) ∨ (k ≠ 2 ∧ s.dev.configures ses = false) →
         Does (.resourceRelease ses seq r) s (fun e => e.Answered ses seq .denied ∧
           e.dict.rclaims = s.dev.dict.rclaims))))

/-- Events and memory through the dictionary (R501 to R503): reading 0x7010 grants a source to the side-band master or
the main host, each by its own subentry; the access data and the access block are read and written through the
Headland bridge at the session's address, and a segment that is not the last is held. The model's choices here: log
entry 123. -/
def Obligations.AccessAndEventObjects : Prop :=
  ∀ (s : State) (ses : Fin 6) (seq : BitVec 32) (x : Session) (a z : Nat), s.dev.Serves ses seq → x = s.dev.session ses →
    a = x.accAddr.toNat → z = x.accSize.toNat →
    (∀ (sb : Bool) (n : Nat), s.dev.objGate ses 0x7010 (if sb then 1 else 2) false false none = .ok (u16, .ro) →
      s.dev.isSb ses = sb → n < 0x800 →
      (∀ m, (Dev.claimable (s.dev.src m) && (if sb then (s.dev.src m).sb else (s.dev.src m).host)) = true ↔ m = n) →
      Does (if sb then .sidebandEventClaim ses seq else .mainHostEventClaim ses seq) s (fun e => e.Answered ses seq .ok ∧
        (e.session ses).resp.drop 20 = toLE 2 n ∧ (e.src n).pend = false ∧ (e.src n).count = 0 ∧ (e.src n).dlv = false ∧
        (e.src n).claimer = (if sb then 0x61 else 0x60))) ∧
    (∀ t c, s.dev.objGate ses 0x6200 3 false false none = .ok (t, c) → a % z = 0 → ∀ (d₁ : Dev) (bs : List W8),
      (s.dev.asked ses x).bridgeRead ses a z = (d₁, .ok bs) → d₁.dict = (s.dev.asked ses x).dict →
      Does (.accessDataRead ses seq) s (fun e => e.Answered ses seq .ok ∧ (e.session ses).resp.drop 20 = padTo 8 bs ∧
        e.mem = d₁.mem)) ∧
    (s.dev.Accepts ses seq 0x6200 3 8 → x.held.map Prod.fst ≠ some (Dev.objKey 0x6200 3) → a % z = 0 → ∀ (v : BitVec 64) (d₁ : Dev),
      (s.dev.asked ses (s.dev.bare ses)).bridgeWrite ses a ((toLE 8 v.toNat).take z) = (d₁, .ok ()) →
      d₁.dict = (s.dev.asked ses (s.dev.bare ses)).dict →
      Does (.accessDataWrite ses seq v) s (fun e => e.Answered ses seq .ok ∧ e.mem = d₁.mem ∧ e.threads = d₁.threads)) ∧
    (∀ (len : BitVec 16) (off : BitVec 32) (n : Nat), n = min len.toNat (2 ^ 24 - off.toNat) →
      s.dev.objGate ses 0x6200 4 false false none = .ok (.domain (2 ^ 24), .rwh) → 1 ≤ len.toNat → len.toNat ≤ 1024 →
      a % z = 0 → (a + off.toNat) % 8 = 0 → len.toNat % 8 = 0 → ∀ (d₁ : Dev) (bs : List W8),
      (s.dev.asked ses x).blockRead ses (n / 8) (a + off.toNat) [] = (d₁, bs, none) →
      d₁.dict = (s.dev.asked ses x).dict →
      Does (.accessBlockRead ses seq len off) s (fun e => e.Answered ses seq .ok ∧ (e.session ses).resp.drop 20 = bs ∧
        e.mem = d₁.mem)) ∧
    (∀ (off : BitVec 32) (val : List W8) (ws : SMap (List W8)), s.dev.objGate ses 0x6200 4 true false none = .ok (.domain (2 ^ 24), .rwh) →
      val.length ≤ 1024 → off.toNat + val.length ≤ 2 ^ 24 → a % z = 0 → a % 8 = 0 → off.toNat % 8 = 0 → val.length % 8 = 0 →
      ws = Dev.addWords (match x.held with | some (k, w) => if k = Dev.objKey 0x6200 4 then w else [] | none => [])
        (val.length / 8) (off.toNat / 8) val →
      Does (.accessBlockWrite ses seq false off val) s (fun e => e.Answered ses seq .ok ∧
        (e.session ses).held = some (Dev.objKey 0x6200 4, ws) ∧ s.dev.SameCore e) ∧
      ∀ (d₁ : Dev) (n : Nat), (s.dev.asked ses (s.dev.bare ses)).blockWrite ses a ws 0 = (d₁, n, none) →
        d₁.dict = (s.dev.asked ses (s.dev.bare ses)).dict →
        Does (.accessBlockWrite ses seq true off val) s (fun e => e.Answered ses seq .ok ∧ (e.session ses).held = none ∧
          e.mem = d₁.mem ∧ e.threads = d₁.threads))


/-! Drills and check-value units. -/

/-- START, FETCH and ABORT of a channel by an agent that holds it (R447, R451, R452, R463): a start or fetch whose
checks pass queues the channel behind the others; one that fails moves nothing, puts the channel into ERROR with the
code and raises its source; an abort removes a queued channel, and marks a running one. The model's choices here:
log entries 112, 113, 114 and 115. -/
def Obligations.DrillControl : Prop :=
  ∀ (s : State) (w : Agent) (n : Fin 8) (c : Fin 32) (ctrl : BitVec 29) (x y z : Chan), x = s.dev.chan n c →
    w.Reaches s.dev → s.dev.domOn 75 = true → s.dev.mayWriteHeld (w.orig s.dev) (s.dev.chanHolder n c) = true →
    y = { x with ctrl := BitVec.ofNat 32 (Dev.ctrlFields x.ctrl.toNat (2 ^ 31 + ctrl.toNat)) } →
    z = { x with ctrl := BitVec.ofNat 32 (Dev.ctrlFields x.ctrl.toNat (2 ^ 30 + ctrl.toNat)) } →
    (x.active = false →
      (y.check 0 = 0 → s.dev.chanCvuBad n c y = false → Does (.chStart w n c ctrl) s (fun e =>
        e.chan n c = { y with st := .queued, abrt := false, fetch := false, loadNext := false, residue := x.count } ∧
        (e.drill n).queue = (s.dev.drill n).queue ++ [c.val] ∧ e.mem = s.dev.mem)) ∧
      (∀ code, (y.check 0 ≠ 0 ∧ code = y.check 0) ∨ (y.check 0 = 0 ∧ s.dev.chanCvuBad n c y = true ∧ code = 0x0F) →
        Does (.chStart w n c ctrl) s (fun e => e.chan n c = { y with
            st := .error, abrt := false, side := 3, code := BitVec.ofNat 8 code, synd := 0, residue := x.count,
            fetch := false, loadNext := false } ∧
          (s.dev.domOn 70 = true → (e.src (0x400 + 32 * n + c)).pend = true) ∧ e.mem = s.dev.mem)) ∧
      (z.next.toNat % 32 = 0 → z.next.toNat < 2 ^ z.abits → Does (.chFetch w n c ctrl) s (fun e =>
        e.chan n c = { z with st := .queued, abrt := false, fetch := true, loadNext := false, residue := x.count } ∧
        (e.drill n).queue = (s.dev.drill n).queue ++ [c.val] ∧ e.mem = s.dev.mem)) ∧
      (∀ code, (z.next.toNat % 32 ≠ 0 ∧ code = 0x02) ∨ (z.next.toNat % 32 = 0 ∧ 2 ^ z.abits ≤ z.next.toNat ∧ code = 0x07) →
        Does (.chFetch w n c ctrl) s (fun e => (e.chan n c).st = .error ∧ (e.chan n c).side = 2 ∧
          (e.chan n c).code = BitVec.ofNat 8 code ∧ (e.chan n c).residue = x.count ∧ e.mem = s.dev.mem)) ∧
      Gives (.chAbort w n c) s (w.ends s.dev s.dev)) ∧
    (x.st = .queued → Does (.chAbort w n c) s (fun e =>
      (e.chan n c).st = .aborted ∧ (e.chan n c).code = 0x2A ∧ (e.chan n c).side = 3 ∧ (e.chan n c).residue = x.count ∧
      (e.drill n).queue = (s.dev.drill n).queue.filter (· != c.val))) ∧
    (x.st = .running → (c.val < 4 ∨ s.dev.chanWaits n c = false) →
      Gives (.chAbort w n c) s (w.ends s.dev (s.dev.setChan n c { x with abrt := true })))

/-- A channel's run (R453, R454, R456, R458 to R465): the oldest queued channel starts; its descriptor ends when all its
bytes are moved, and the run is DONE or loads the next descriptor; a failure stops it once every write it has issued is
acknowledged, with the bytes from the lowest failed offset on in RESIDUE; a BAR = 1 descriptor that finds an earlier
write of the run failed ends the run so too; a bad descriptor leaves every register but CH_STATUS; an abort ends the
run at a block, or is ignored, or gives way to a failed write; a write failure that arrives late stops the channel
that still runs, and is recorded for one that has ended. The model's choices here: log entries 110, 111, 112 and 176. -/
def Obligations.DrillRuns : Prop :=
  ∀ (s : State) (n : Fin 8) (c : Fin 32) (g : Drill) (x : Chan), g = s.dev.drill n → x = s.dev.chan n c →
    s.dev.domOn 75 = true → s.dev.frozen (32 + n) = false →
    (∀ q, g.busy = false → g.queue = c.val :: q → Does (.channelRun n) s (fun e =>
      (e.drill n).busy = true ∧ (e.drill n).cur = BitVec.ofNat 5 c ∧ (e.drill n).queue = q ∧
      e.chan n c = { x with st := .running, loadNext := x.fetch } ∧
      (x.fetch = false → x.cven = true → s.dev.chanCvu n c = none → (s.dev.cvu x.cvu).att = none → (s.dev.cvu x.cvu).waitq = [] →
        (e.cvu x.cvu).att = some (.chan n c)))) ∧
    (s.dev.running n = some c.val → ∀ m, m = s.dev.chanMove n c x.count.toNat →
      (m.err = none → (x.bar = false ∨ s.dev.pending n c = []) → Does (.descriptorEnd n) s (fun e => e.mem = m.dev.mem ∧
        (x.chain = false → (e.chan n c).st = .done ∧ (e.chan n c).code = 0 ∧ (e.chan n c).side = 3 ∧ (e.chan n c).residue = 0) ∧
        (x.chain = true → e.chan n c = { m.dev.chan n c with loadNext := true, residue := 0 }) ∧
        (x.irq = true → m.dev.domOn 70 = true → (e.src (0x400 + 32 * n + c)).pend = true))) ∧
      (∀ (f y : MoveErr) (o : Nat), m.err = some f → Dev.lowestFail (m.dev.pending n c) (some (m.off, f)) = some (o, y) →
        ∀ cmd, (cmd = .transferError n ∨ cmd = .descriptorEnd n ∧ (x.bar = false ∨ s.dev.pending n c = [])) →
        Does cmd s (fun e => e.mem = m.dev.mem ∧ e.pending n c = [] ∧
          (e.chan n c).st = .error ∧ (e.chan n c).side = BitVec.ofNat 2 y.side ∧ (e.chan n c).code = BitVec.ofNat 8 y.code ∧
          (e.chan n c).residue = BitVec.ofNat 32 ((m.dev.chan n c).count.toNat - o))) ∧
      (∀ (y : MoveErr) (o : Nat), x.bar = true → Dev.lowestFail (s.dev.pending n c) none = some (o, y) →
        Does (.descriptorEnd n) s (fun e => e.pending n c = [] ∧ (e.chan n c).st = .error ∧ (e.chan n c).side = BitVec.ofNat 2 y.side ∧
          (e.chan n c).code = BitVec.ofNat 8 y.code ∧ (e.chan n c).residue = BitVec.ofNat 32 (x.count.toNat - o)))) ∧
    (g.busy = true → g.cur = BitVec.ofNat 5 c → x.loadNext = true → x.abrt = false →
      ∀ (d₁ d₂ : Dev) (pa : Nat) (bs : List W8) (y : Chan) (raw : Nat),
      s.dev.chanXlate n x .read x.next.toNat = (d₁, .ok pa) → (∀ o, region pa ≠ .device o) →
      d₁.streamRead (.drill n c) 0 pa 32 = (d₂, .ok bs) → Dev.descOf x bs = (y, raw) →
      (y.check raw = 0 → d₂.chanCvuBad n c y = false → Does (.descriptorLoad n) s (fun e =>
        e.chan n c = { y with fetch := false, loadNext := false, residue := y.count } ∧ e.mem = d₂.mem)) ∧
      (y.check raw ≠ 0 → d₂.chan n c = x → d₂.pending n c = [] → Does (.descriptorLoad n) s (fun e => e.chan n c = { x with
        st := .error, abrt := false, side := 2, code := BitVec.ofNat 8 (y.check raw), synd := 0, residue := 0,
        fetch := false, loadNext := false }))) ∧
    (g.busy = true → g.cur = BitVec.ofNat 5 c → x.abrt = true →
      (x.loadNext = true → s.dev.pending n c = [] → Does (.abortComplete n) s (fun e =>
        (e.chan n c).st = .aborted ∧ (e.chan n c).code = 0x2A ∧ (e.chan n c).residue = 0)) ∧
      (x.loadNext = true → ∀ (y : MoveErr) (o : Nat), Dev.lowestFail (s.dev.pending n c) none = some (o, y) →
        Does (.abortComplete n) s (fun e => (e.chan n c).st = .error ∧ (e.chan n c).code = BitVec.ofNat 8 y.code ∧
          (e.chan n c).side = BitVec.ofNat 2 y.side ∧ (e.chan n c).residue = BitVec.ofNat 32 (x.count.toNat - o))) ∧
      (x.loadNext = false → c.val < 4 → x.chain = false →
        Gives (.abortComplete n) s (s.dev.setChan n c { x with abrt := false })) ∧
      (x.loadNext = false → 4 ≤ c.val → s.dev.running n = some c.val → x.chain = true →
        (∀ len ≤ x.count.toNat, ((s.dev.free.1).chanMove n c len).err = none ∧
          ((s.dev.free.1).chanMove n c len).dev.pending n c = []) → Does (.abortComplete n) s (fun e =>
          (e.chan n c).st = .aborted ∧ (e.chan n c).code = 0x2A ∧
          ∃ k, 1 ≤ k ∧ (e.chan n c).residue = BitVec.ofNat 32 (x.count.toNat - min x.count.toNat (256 * k))))) ∧
    (∀ (f : LateFail) (r : List LateFail), g.late = f :: r → f.ch = c →
      (f.old = false → x.st = .running → ∀ (y : MoveErr) (o : Nat), Dev.lowestFail (s.dev.pending n c) none = some (o, y) →
        Does (.lateWriteFailure n) s (fun e => e.pending n c = [] ∧ (e.chan n c).st = .error ∧ (e.chan n c).side = BitVec.ofNat 2 y.side ∧
          (e.chan n c).code = BitVec.ofNat 8 y.code ∧ (e.chan n c).residue = BitVec.ofNat 32 (x.count.toNat - o) ∧
          (s.dev.domOn 70 = true → (e.src (0x400 + 32 * n + c)).pend = true) ∧ e.mem = s.dev.mem)) ∧
      (f.old = true ∨ x.st ≠ .running → Does (.lateWriteFailure n) s (fun e => (e.drill n).late = r ∧
      (e.drill n).werr = BitVec.ofNat 64 (f.code * 2 ^ 56 + f.ch * 2 ^ 51 + f.pa % 2 ^ 46) ∧
      (s.dev.domOn 70 = true → (e.src (0x400 + 32 * n + c)).pend = true) ∧ (e.drill n).chans = g.chans ∧ e.mem = s.dev.mem)))

/-- Check-value units (R466 to R468, R470): INIT loads the algorithm's initial value; a feed of 1, 2, 4 or 8 bytes
feeds them lowest first, and changes nothing but CV_VAL; while an attachment is in progress such a write changes
nothing; one to a frozen unit waits behind the earlier ones; a free unit serves the attachment that has waited
longest; and the check values of the four fixed algorithms are the table's. The model's choices here: log entry 116.
-/
def Obligations.CheckUnits : Prop :=
  (∀ (s : State) (w : Agent) (u : Fin 32) (x : Cvu), x = s.dev.cvu u → w.Reaches s.dev → s.dev.domOn 75 = true →
    s.dev.mayWriteHeld (w.orig s.dev) (s.dev.cvuHolder u) = true →
    (x.att = none → ∀ (v8 : BitVec 8) (v16 : BitVec 16) (v32 : BitVec 32) (v64 : BitVec 64) (feeds : List (Instr × List W8)),
      feeds = [(Instr.cvFeed8 w u v8, toLE 1 v8.toNat), (.cvFeed16 w u v16, toLE 2 v16.toNat),
            (.cvFeed32 w u v32, toLE 4 v32.toNat), (.cvPfx w u v64, toLE 8 v64.toNat)] →
      Gives (.cvInit w u) s (w.ends s.dev (s.dev.setCvu u { x with val := BitVec.ofNat 64 (x.initial % 2 ^ x.width) })) ∧
      (s.dev.frozen u = false → x.held = [] → ∀ p ∈ feeds, Gives p.1 s (w.ends s.dev (s.dev.setCvu u
        { x with val := BitVec.ofNat 64 (crcBytes x.lsb x.width x.poly' x.val.toNat p.2) }))) ∧
      (w.isMaster = true → s.dev.frozen u = true ∨ x.held ≠ [] → ∀ p ∈ feeds, Gives p.1 s (w.ends s.dev (s.dev.setCvu u
        { x with held := x.held ++ [p.2] })))) ∧
    (x.att ≠ none → ∀ (v8 : BitVec 8) (v64 : BitVec 64), ∀ cmd ∈ [Instr.cvInit w u, .cvFeed8 w u v8, .cvPfx w u v64],
      Does cmd s (fun e => e.cvus = s.dev.cvus))) ∧
  (∀ (s : State) (u : Fin 32) (a : Attach) (r : List Attach), s.dev.domOn 75 = true → (s.dev.cvu u).att = none →
    (s.dev.cvu u).waitq = a :: r → Gives (.cvuAttach u) s (s.dev.setCvu u { s.dev.cvu u with att := some a, waitq := r })) ∧
  (∀ p ∈ [(0, 0xE3069283), (1, 0xCBF43926), (2, 0x29B1), (3, 0x6C40DF5F0B497347)],
    Cvu.result ((Cvu.start { alg := BitVec.ofNat 3 p.1 }).feed [0x31, 0x32, 0x33, 0x34, 0x35, 0x36, 0x37, 0x38, 0x39]) = p.2)

/-! Furrows and partners. -/

/-- Furrow commands and the timeout unit (R434, R435): ENABLE starts the furrow where its checks pass and answers 0x3101
with the failing reason where they do not; DISABLE of an enabled furrow is answered when it has ended; CLEAR and RESYNC;
a group claims and releases its unit.
The model's choices here: log entry 94. -/
def Obligations.FurrowCommands : Prop :=
  ∀ (s : State) (ses : Fin 6) (seq : BitVec 32) (f : Fin 4096) (x : Furrow), x = s.dev.furrow f →
    (s.dev.Accepts ses seq 0x3100 1 4 →
      (s.dev.domOn (61 + f / 512) = true →
        (s.dev.enableCheck f = 0 → Does (.furrowEnable ses seq f) s (fun e => e.Answered ses seq .ok ∧ e.obj 0x3101 1 = f ∧
          e.furrow f = { x with st := .enabled, marked := none, resync := false, prevAt := none })) ∧
        (∀ r, s.dev.enableCheck f = r → r ≠ 0 → Does (.furrowEnable ses seq f) s (fun e => e.Answered ses seq .ok ∧
          e.obj 0x3101 1 = 2 ^ 28 + r * 2 ^ 24 + f ∧ e.furrows = s.dev.furrows)) ∧
        (x.enabledSt = true → Does (.furrowDisable ses seq f) s (fun e => (e.session ses).seq = (s.dev.session ses).seq ∧
          (∃ b, e.dict.busy = some b ∧ b.ses = ses ∧ b.seq = seq.toNat ∧ b.drop = false ∧ b.ops = [.disable f]) ∧
          (e.furrow f).st = .disabling ∧ (x.wins = [] → e.furrow f = { x with st := .disabling }))) ∧
        (x.enabledSt = false → Does (.furrowDisable ses seq f) s (fun e => e.Answered ses seq .ok ∧ e.obj 0x3101 1 = f ∧
          e.furrows = s.dev.furrows)) ∧
        Does (.furrowClear ses seq f) s (fun e => e.Answered ses seq .ok ∧ e.furrow f = { x with ctr := [], errw := 0 }) ∧
        Does (.furrowResync ses seq f) s (fun e => e.Answered ses seq .ok ∧ e.furrow f = { x with resync := true })) ∧
      (s.dev.domOn (61 + f / 512) = false →
        ∀ c ∈ [Instr.furrowEnable ses seq f, .furrowDisable ses seq f, .furrowClear ses seq f, .furrowResync ses seq f],
          Does c s (fun e => e.Answered ses seq .off ∧ e.furrows = s.dev.furrows))) ∧
    (x.st = .disabling → x.wins = [] → (∀ y ∈ (s.dev.peng (f / 512)).inflight, y.q.furrow ≠ f) →
      (s.dev.dict.busy = none →
        Gives (.furrowDisableComplete f) s (s.dev.setFurrow f { x with st := .disabled, marked := none })) ∧
      (∀ b : Busy, s.dev.dict.busy = some b → b.ses = ses → b.seq = seq.toNat → b.drop = false → b.ops = [.disable f] →
        s.dev.dict.waiting = [] → (SMap.find s.dev.dict.sessions ses).isSome = true →
        Does (.furrowDisableComplete f) s (fun e => e.furrow f = { x with st := .disabled, marked := none } ∧
          e.obj 0x3101 1 = f ∧ e.dict.busy = none ∧ (e.session ses).seq = some seq ∧ (e.session ses).resp = b.resp))) ∧
    (∀ (g u : Fin 8), s.dev.Accepts ses seq 0x3120 (g + 1) 1 →
      (8 ≤ s.dev.obj 0x3120 (g + 1) → s.dev.unitHolder u = 0 →
        Does (.furrowTimeoutUnitClaim ses seq g u) s (fun e => e.Answered ses seq .ok ∧ e.obj 0x3120 (g + 1) = u ∧
          e.unitHolder u = 0x400 + g ∧ (e.ccUnit u).mode = 3 ∧ (e.ccUnit u).period = 10000)) ∧
      (s.dev.unitHolder u ≠ 0 → s.dev.unitHolder u ≠ 0x400 + g →
        Does (.furrowTimeoutUnitClaim ses seq g u) s (fun e => e.Answered ses seq .conflict ∧ e.objs = s.dev.objs ∧
          e.dict.rclaims = s.dev.dict.rclaims ∧ e.alm = s.dev.alm)) ∧
      (s.dev.obj 0x3120 (g + 1) = u →
        (s.dev.furrows.any (fun y => y.1 / 512 == g.val && y.2.enabledSt && y.2.wto != 0) = false →
          Does (.furrowTimeoutUnitRelease ses seq g) s (fun e => e.Answered ses seq .ok ∧ e.obj 0x3120 (g + 1) = 0xFF ∧
            e.unitHolder u = 0 ∧ (e.ccUnit u).mode = 0)) ∧
        (s.dev.furrows.any (fun y => y.1 / 512 == g.val && y.2.enabledSt && y.2.wto != 0) = true →
          Does (.furrowTimeoutUnitRelease ses seq g) s (fun e => e.Answered ses seq .busy ∧ e.objs = s.dev.objs))))

/-- Frames and windows (R374, R414 to R420, R428): a frame of fewer than 64 bytes is dropped, and one whose FCS is
wrong, or that no furrow matches, is counted and dropped; the first frame of a window of a Standard furrow takes its
place in the ingress buffer; the scheduler issues a frame's write, and its acknowledgement is the write; a closed
window whose writes are done advances P, raises the source and is counted; a window that waits too long is cut short;
a release moves Q, or is refused with BADREL. The model's choices here: log entries 90, 91, 92, 95 and 174. -/
def Obligations.FramesAndWindows : Prop :=
  ∀ (s : State),
    (∀ (p : Fin 16) (bs : List W8) (tag : Option SecTag) (icv : Bool), (s.dev.port p).st = .up →
      (∀ fcs, bs.length + (if tag.isSome then 32 else 0) + 4 < 64 → Gives (.frameClassify p bs fcs tag icv) s s.dev) ∧
      (64 ≤ bs.length + 4 → Gives (.frameClassify p bs false tag icv) s (s.dev.countFrame p 1)) ∧
      (64 ≤ bs.length + 4 → bs.length + 4 ≤ s.dev.maxFrame p → (Dev.etherAt bs).1 ≠ 0x8808 → s.dev.obj 0x3030 (p + 1) < 2 ^ 31 →
        pelzAt bs (s.dev.obj 0x1030 0) = none → Dev.isLldp bs = false → s.dev.malformed p bs = false →
        (s.dev.furMatch p bs = none →
          Gives (.frameClassify p bs true tag icv) s ((s.dev.countFrame p 0).countClass p 1)) ∧
        (∀ (f : Nat) (x : Furrow) (h : StreamHdr), s.dev.furMatch p bs = some f → x = s.dev.furrow f →
          (x.anysrc = true ∨ ((s.dev.partner x.partner).st = 1 ∧ (s.dev.partner x.partner).mac = ofBE (slice bs 6 6) ∧
            (s.dev.partner x.partner).port = p)) →
          x.st = .enabled → x.form = 0 → x.cls = 0 → x.seqen = false → x.marked = none → x.assembling = none →
          (∀ a ∈ x.wins, a.id ≠ x.nextId) → (frameKey bs x.kind).bind (fun k => streamHdr bs k.2) = some h →
          h.woff = 0 → h.last = false → h.plen ≤ x.wb → (∀ k ∈ s.dev.furrowDoms f, s.dev.domOn k = true) →
          (x.P - x.Q).toNat + Dev.ringPending x < x.nslot → s.dev.queueRoom f 0 bs.length = true →
          Does (.frameClassify p bs true tag icv) s (fun e =>
            (e.peng (f / 512)).queue = (s.dev.peng (f / 512)).queue ++ [⟨f, x.nextId, 0, 0, h.payload, bs.length⟩] ∧
            (∃ a : Asm, (e.furrow f).wins = x.wins ++ [a] ∧ a.id = x.nextId ∧ a.wseq = h.wseq ∧ a.bytes = h.plen ∧
              a.frames = 1 ∧ a.closed = none) ∧
            (e.furrow f).P = x.P ∧ (e.furrow f).counter 0 = satAdd max64 (x.counter 0) 1 ∧ e.mem = s.dev.mem)))) ∧
    (∀ (g : Fin 8) (y : PortEng) (q : QFrame), s.dev.frozen (40 + g) = false → s.dev.pickFrame g = (y, some q) →
      Does (.frameDelivery g) s (fun e => e.mem = s.dev.mem ∧
        (e.peng g).queue = y.queue.erase q ∧ (e.peng g).inflight = y.inflight ++ [⟨q, s.dev.framePa q⟩])) ∧
    (∀ (g : Fin 8) (v : DWrite) (r : List DWrite) (d₁ : Dev), (s.dev.peng g).inflight = v :: r →
      (s.dev.setPeng g { s.dev.peng g with inflight := r }).streamWrite (.port g (s.dev.furrow v.q.furrow).piste) v.pa v.q.bytes = (d₁, .ok ()) →
      Does (.deliveryWriteAck g) s (fun e => e.mem = d₁.mem ∧ (e.peng g).inflight = (d₁.peng g).inflight)) ∧
    (∀ (f : Fin 4096) (x : Furrow) (a : Asm) (c : Closed) (d₁ : Dev), x = s.dev.furrow f → s.dev.readyWin f = some (a, c) →
      a.buf = none → s.dev.frozen (40 + f / 512) = false → x.chainOn = false → x.form = 0 →
      s.dev.streamWrite (.port (f / 512) x.piste) (x.ledgerPa (x.P.toNat % x.nslot)) (Dev.ledgerEntry x f a.wseq a c false) = (d₁, .ok ()) →
      Does (.windowComplete f) s (fun e => e.mem = d₁.mem ∧ (e.furrow f).P = x.P + 1 ∧
        (e.furrow f).wins = x.wins.filter (fun b => b.id != a.id) ∧
        (e.furrow f).counter 12 = satAdd max64 (x.counter 12) 1 ∧
        (a.demoted = false → (e.furrow f).counter 1 = satAdd max64 (x.counter 1) a.frames) ∧
        (s.dev.domOn 70 = true → (e.src x.src).pend = true))) ∧
    (∀ (f : Fin 4096) (x : Furrow) (a : Asm), x = s.dev.furrow f → x.assembling = some a → x.wto ≠ 0 →
      s.dev.obj 0x3120 (f / 512 + 1) ≠ 0xFF → s.dev.frozen (40 + f / 512) = false →
      (a.firstMono + x.wto * 1000 ≤ s.dev.mono → Does (.windowTimeout f) s (fun e =>
        (e.furrow f).wins = x.wins.filter (fun b => b.id != a.id) ∧ (e.furrow f).marked = some (a.wseq, 5) ∧
        (e.furrow f).counter 5 = satAdd max64 (x.counter 5) a.frames ∧
        (e.furrow f).counter 15 = satAdd max64 (x.counter 15) 1)) ∧
      (s.dev.mono < a.firstMono + x.wto * 1000 → Gives (.windowTimeout f) s s.dev)) ∧
    (∀ (w : Agent) (f : Fin 4096) (x : Furrow) (q : BitVec 32), x = s.dev.furrow f → w.Reaches s.dev →
      s.dev.domOn (61 + f / 512) = true → x.form ≠ 2 →
      (1 ≤ (q - x.Q).toNat ∧ (q - x.Q).toNat ≤ (x.P - x.Q).toNat →
        Gives (.frRelWrite w f q) s (w.ends s.dev (s.dev.setFurrow f { x with Q := q }))) ∧
      (¬ (1 ≤ (q - x.Q).toNat ∧ (q - x.Q).toNat ≤ (x.P - x.Q).toNat) →
        Gives (.frRelWrite w f q) s (w.ends s.dev (s.dev.setFurrow f { x with badrel := true }))))

/-- Output furrows and flow control (R425 to R427, R430): a post of 1 to NSLOT slots moves Q and is counted, any other
is refused with BADREL; the chosen slot is sent with its frames, or skipped where its port is not UP; XOFF is
repeated while it is in force. The model's choices here: log entry 97. -/
def Obligations.OutputFurrows : Prop :=
  ∀ (s : State),
    (∀ (w : Agent) (f : Fin 4096) (x : Furrow) (q : BitVec 32), x = s.dev.furrow f → w.Reaches s.dev →
      s.dev.domOn (61 + f / 512) = true → x.form = 2 →
      (1 ≤ (q - x.P).toNat → (q - x.P).toNat ≤ x.nslot → (x.Q - x.P).toNat ≤ (q - x.P).toNat →
        Does (.outputPost w f q) s (fun e => (e.furrow f).Q = q ∧ (e.furrow f).P = x.P ∧ (e.furrow f).badrel = x.badrel ∧
          (e.furrow f).counter 0 = satAdd max64 (x.counter 0) ((q - x.P).toNat - (x.Q - x.P).toNat) ∧ e.mem = s.dev.mem)) ∧
      (q = x.P ∨ x.nslot < (q - x.P).toNat ∨ (q - x.P).toNat < (x.Q - x.P).toNat →
        Gives (.outputPost w f q) s (w.ends s.dev (s.dev.setFurrow f ({ x with badrel := true }.bump 5 1))))) ∧
    (∀ (p : Fin 16) (y : PortEng) (f : Nat) (x : Furrow) (d₀ : Dev), s.dev.frozen (40 + p / 2) = false →
      s.dev.pickOut p = (y, some f) → d₀ = s.dev.setPeng (p / 2) y → x = s.dev.furrow f →
      (s.dev.portUp p = false → s.dev.portUp x.portNo = false →
        Gives (.outputSend p) s (d₀.setFurrow f { x.bump 3 1 with P := x.P + 1 })) ∧
      (s.dev.portUp p = true → (s.dev.port p).paused = false → (s.dev.port p).express = [] → x.portNo = p →
        ∀ (d₁ d₂ d₃ d₄ : Dev) (led tpl data : List W8) (frs : List (List W8)) (k : Nat), k = x.P.toNat % x.nslot →
          d₀.egressRead f (x.ledgerPa k) 8 = (d₁, some led) → 1 ≤ ofLE (led.take 4) → ofLE (led.take 4) ≤ x.wb →
          d₁.egressRead f x.entry x.hlen = (d₂, some tpl) →
          d₂.egressRead f (x.slotPa k) (ofLE (led.take 4)) = (d₃, some data) → d₃.resultFrames f tpl data = (d₄, frs) →
          Does (.outputSend p) s (fun e => (e.furrow f).P = (d₄.furrow f).P + 1 ∧
            (e.furrow f).counter 1 = satAdd max64 ((d₄.furrow f).counter 1) 1 ∧
            (e.furrow f).counter 2 = satAdd max64 ((d₄.furrow f).counter 2) frs.length))) ∧
    (∀ p : Fin 16, (s.dev.port p).xoff = true → s.dev.portUp p = true → bitN (s.dev.portCfg p) 24 = true →
      Does (.pfcXoffRepeat p) s (fun e => (e.port p).xoff = true ∧
        e.out = .pfc p (fld (s.dev.portCfg p) 23 16) 0xFFFF :: s.dev.out))

/-- Partners (R437 to R441, R444, R445): a greeting of a new partner that no rule admits waits in the queue and takes a
token, and is dropped where no token is left; a heartbeat of an admitted or lost partner renews it; a partner three
periods late is LOST; the admit and evict commands and the queue's pop; a token comes back while the port is UP. The
model's choices here: log entries 102, 103, 104, 105 and 106. -/
def Obligations.Partners : Prop :=
  ∀ (s : State),
    (∀ (p : Fin 16) (mac own : BitVec 48) (key : Fin 4) (ctr pid : BitVec 64) (att : BitVec 8) (per : BitVec 16),
      s.dev.partnerPath p = true →
      ((s.dev.port p).tokens = 0 → Does (.greeting p ⟨mac, own⟩ key ctr true pid att per) s (fun e =>
        e.partners.queue = s.dev.partners.queue ∧ e.partners.table = s.dev.partners.table ∧
        (e.port p).classes.get 0 4 = satAdd max64 ((s.dev.port p).classes.get 0 4) 1)) ∧
      ((s.dev.port p).tokens ≠ 0 → s.dev.role key = 2 → s.dev.hasKey key = true → s.dev.partnerAt mac.toNat p = none →
        s.dev.queuedGreet mac.toNat p = none →
        (s.dev.ruleMatches p pid = false → s.dev.partners.queue.length < 256 →
          Does (.greeting p ⟨mac, own⟩ key ctr true pid att per) s (fun e =>
            e.partners.queue = s.dev.partners.queue ++ [⟨mac.toNat, p, att.toNat, pid, per.toNat, s.dev.mono, [(key.val, ctr.toNat)]⟩] ∧
            (e.port p).tokens = (s.dev.port p).tokens - 1 ∧ e.partners.table = s.dev.partners.table)) ∧
        (∀ i, s.dev.ruleMatches p pid = true → s.dev.emptyPartner = some i →
          Does (.greeting p ⟨mac, own⟩ key ctr true pid att per) s (fun e =>
            (e.partner i).st = 1 ∧ (e.partner i).mac = mac.toNat ∧ (e.partner i).port = p ∧ (e.partner i).pid = pid ∧
            (e.partner i).byRule = true ∧ (e.partner i).last = s.dev.mono))) ∧
      (∀ i, s.dev.role key = 2 → s.dev.hasKey key = true → s.dev.partnerAt mac.toNat p = some i → (s.dev.partner i).pid = pid →
        (∀ k, SMap.find (s.dev.partner i).ctr key = some k → k < ctr.toNat) →
        Does (.heartbeat p mac key ctr true pid) s (fun e =>
          (e.partner i).st = 1 ∧ (e.partner i).last = s.dev.mono ∧
          (e.port p).classes.get 0 7 = satAdd max64 ((s.dev.port p).classes.get 0 7) 1))) ∧
    (s.dev.domOn 70 = true → Does .heartbeatLossCheck s (fun e => ∀ i < 256, e.partner i =
      (if (s.dev.partner i).st = 1 ∧ (s.dev.partner i).last + 3 * (s.dev.partner i).period * 1000000 < s.dev.mono
       then { s.dev.partner i with st := 2 } else s.dev.partner i))) ∧
    (∀ (ses : Fin 6) (seq : BitVec 32),
      (s.dev.Accepts ses seq 0x1110 1 24 → ∀ (idx : BitVec 8) (mac : BitVec 48) (p : Fin 16) (per : BitVec 16) (pid : BitVec 64),
        (idx ≠ 0xFF → 10 ≤ per.toNat → per.toNat ≤ 10000 →
          ((s.dev.partner idx.toNat).st = 0 → s.dev.partnerAt mac.toNat p = none →
            Does (.partnerAdmit ses seq idx mac p per pid) s (fun e => e.Answered ses seq .ok ∧
              (e.partner idx.toNat).st = 1 ∧ (e.partner idx.toNat).mac = mac.toNat ∧ (e.partner idx.toNat).port = p ∧
              (e.partner idx.toNat).pid = pid ∧ (e.partner idx.toNat).period = per.toNat ∧
              ∀ g ∈ e.partners.queue, ¬ (g.mac = mac.toNat ∧ g.port = p))) ∧
          ((s.dev.partner idx.toNat).st ≠ 0 →
            Does (.partnerAdmit ses seq idx mac p per pid) s (fun e => e.Answered ses seq .busy ∧
              e.partners = s.dev.partners))) ∧
        ((s.dev.partner idx.toNat).st ≠ 0 → Does (.partnerEvict ses seq idx) s (fun e => e.Answered ses seq .ok ∧
          e.partner idx.toNat = {} ∧ e.partners.queue = s.dev.partners.queue))) ∧
      (s.dev.Accepts ses seq 0x1120 3 1 → ∀ v : BitVec 8, Does (.greetingQueuePop ses seq v) s (fun e =>
        e.Answered ses seq .ok ∧ e.partners.queue = s.dev.partners.queue.drop 1 ∧ e.partners.table = s.dev.partners.table))) ∧
    (∀ p : Fin 16, ((s.dev.port p).st = .up →
        Gives (.tokenRefill p) s (s.dev.setPort p { s.dev.port p with tokens := min 64 ((s.dev.port p).tokens + 1) })) ∧
      ((s.dev.port p).st ≠ .up → Gives (.tokenRefill p) s (s.dev.setPort p (s.dev.port p))))

/-! Ports, the Almanac and GPIO. -/

/-- Ports (R371, R372, R376 to R378, R381): an enable whose RATE and lanes are free puts the port into DOWN, and is
refused RANGE, CONFLICT or BUSY where they are not; a disable, lock, the hold time and a fault move it between its
states, but none comes up while a quad of its lanes is not ON; entering UP with EXPRESS sends the first verify frame,
and the exchange ends after three at most; frames that a PAUSE held go when it ends; PFC and LLDP set what they name.
The model's choices here: log entries 70, 71, 75 and 172. -/
def Obligations.Ports : Prop :=
  ∀ (s : State) (p : Fin 16) (x : Port) (down : PortSt → Port), x = s.dev.port p →
    (∀ st, down st = { x with
      st := st, preempting := false, verify := false, paused := false, stopped := 0, xoff := false, held := []
      frames := if x.held = [] then x.frames else x.frames.put 4 (satAdd max64 (x.frames.get 0 4) x.held.length) }) →
    (∀ (ses : Fin 6) (seq : BitVec 32) (cfg : BitVec 31) (v old : Nat), s.dev.Accepts ses seq 0x3010 (p + 1) 4 →
      v = 2 ^ 31 + cfg.toNat → old = s.dev.portCfg p →
      (Dev.portCfgRange p v = false → Does (.portEnable ses seq p cfg) s (fun e => e.Answered ses seq .range ∧
        e.objs = s.dev.objs ∧ e.ports = s.dev.ports)) ∧
      (Dev.portCfgRange p v = true →
        (bitN old 31 = true → fld old 30 28 ≠ fld v 30 28 → Does (.portEnable ses seq p cfg) s (fun e =>
          e.Answered ses seq .busy ∧ e.objs = s.dev.objs ∧ e.ports = s.dev.ports)) ∧
        (bitN old 31 = true → fld old 30 28 = fld v 30 28 → Does (.portEnable ses seq p cfg) s (fun e =>
          e.Answered ses seq .ok ∧ e.portCfg p = v ∧ e.ports = s.dev.ports)) ∧
        (∀ ls, ls = Dev.macLanes p (fld v 30 28) → bitN old 31 = false →
          (∀ l ∈ ls, s.dev.domOn (61 + l / 4) = true) → (∃ l ∈ ls, s.dev.hl.lanesFailed.getLsbD l = true) →
          Does (.portEnable ses seq p cfg) s (fun e => e.Answered ses seq .busy ∧ e.objs = s.dev.objs ∧ e.ports = s.dev.ports)) ∧
        (∀ ls, ls = Dev.macLanes p (fld v 30 28) → bitN old 31 = false →
          (∀ l ∈ ls, s.dev.domOn (61 + l / 4) = true ∧ s.dev.hl.lanesFailed.getLsbD l = false) →
          ((∀ l ∈ ls, s.dev.laneTaken (some p) none l = false) → Does (.portEnable ses seq p cfg) s (fun e =>
            e.Answered ses seq .ok ∧ e.portCfg p = v ∧ (e.src (0x600 + p)).pend = true ∧ e.port p = { down .down with
              localFault := false, remoteFault := false })) ∧
          ((∃ l ∈ ls, s.dev.laneTaken (some p) none l = true) → Does (.portEnable ses seq p cfg) s (fun e =>
            e.Answered ses seq .conflict ∧ e.objs = s.dev.objs ∧ e.ports = s.dev.ports)))) ∧
      (Dev.portCfgRange p cfg.toNat = true → bitN old 31 = true → fld old 30 28 = fld cfg.toNat 30 28 →
        Does (.portDisable ses seq p cfg) s (fun e => e.Answered ses seq .ok ∧ e.portCfg p = cfg.toNat ∧
          e.port p = down .disabled))) ∧
    (∀ on : Bool, on = (Dev.macLanes p (fld (s.dev.portCfg p) 30 28)).all (fun l => s.dev.domOn (61 + l / 4)) →
      (x.st ≠ .down ∨ on = false → Gives (.pcsLock p) s s.dev) ∧
      (x.st ≠ .hold ∨ on = false → Gives (.holdTimeout p) s s.dev) ∧
      (x.st = .down → on = true → Gives (.pcsLock p) s (s.dev.setPort p { x with st := .hold, localFault := false, remoteFault := false })) ∧
      (x.st = .hold → on = true → Does (.holdTimeout p) s (fun e =>
        e.port p = { x with st := .up, tokens := 64, verify := x.verify || bitN (s.dev.portCfg p) 25 } ∧
        (bitN (s.dev.portCfg p) 25 = true → e.out = .verify p 0 :: s.dev.out) ∧
        (s.dev.domOn 70 = true → (e.src (0x600 + p)).pend = true)))) ∧
    (∀ loc rem : Bool,
      (x.st = .hold ∨ x.st = .up → Does (.linkFault p loc rem) s (fun e => e.port p = { down .down with localFault := loc, remoteFault := rem } ∧
        (s.dev.domOn 70 = true → (e.src (0x600 + p)).pend = true) ∧
        (x.st = .up → ∀ n < 4, ∀ k < 16, s.dev.slotLive n k = true → s.dev.slotPort n k = p → (e.pslot n k).void_ = true))) ∧
      (x.st = .down → Gives (.linkFault p loc rem) s (s.dev.setPort p { x with localFault := loc, remoteFault := rem }))) ∧
    (∀ ok : Bool,
      (x.st = .up → bitN (s.dev.portCfg p) 25 = true → x.verify = true → Does (.preemptVerify p ok) s (fun e =>
        e.port p = { x with preempting := ok, verify := false } ∧
        ∃ n ≤ 2, e.out = List.replicate n (.verify p 0) ++ s.dev.out ∧ (ok = false → n = 2))) ∧
      (x.verify = false → Gives (.preemptVerify p ok) s s.dev)) ∧
    (∀ quanta : BitVec 16, x.st = .up →
      (bitN (s.dev.portCfg p) 26 = true → Does (.pauseFrame p quanta) s (fun e => (e.port p).paused = decide (quanta ≠ 0) ∧
        (e.port p).frames.get 0 0 = satAdd max64 (x.frames.get 0 0) 1 ∧
        (quanta ≠ 0 → ∀ n < 4, ∀ k < 16, s.dev.slotLive n k = true → s.dev.slotPort n k = p → (e.pslot n k).void_ = true))) ∧
      (bitN (s.dev.portCfg p) 26 = false → Gives (.pauseFrame p quanta) s (s.dev.countFrame p 0))) ∧
    (∀ (en : BitVec 8) (quanta : List W16), quanta.length = 8 → x.st = .up → bitN (s.dev.portCfg p) 24 = true →
      Does (.pfcFrame p en quanta) s (fun e => (e.port p).frames.get 0 0 = satAdd max64 (x.frames.get 0 0) 1 ∧
        ∀ i < 8, (e.port p).stopped.getLsbD i =
          (if en.getLsbD i = true ∧ bitN (s.dev.portCfg p) (16 + i) = true then decide (quanta[i]? ≠ some 0)
           else x.stopped.getLsbD i))) ∧
    (x.held = [] ∨ x.st = .up ∧ x.express ≠ [] →
      Gives (.pauseTimerExpiry p none) s (s.dev.setPort p { x with paused := false })) ∧
    (x.st = .up → x.express = [] → s.dev.obj 0x3030 (p + 1) < 2 ^ 31 → Does (.pauseTimerExpiry p none) s (fun e =>
      (e.port p).paused = false ∧ (e.port p).held = [] ∧
      e.out = (x.held.map (fun bs => Out.frame p false bs none)).reverse ++ s.dev.out)) ∧
    (∀ i : Fin 8, Does (.pauseTimerExpiry p (some i)) s (fun e => e = s.dev.setPort p { x with stopped := (e.port p).stopped } ∧
      ∀ j < 8, (e.port p).stopped.getLsbD j = (if j = i then false else x.stopped.getLsbD j))) ∧
    (∀ (bs pdu : List W8), x.st = .up → 64 ≤ bs.length + 4 → bs.length + 4 ≤ s.dev.maxFrame p → Dev.isLldp bs = true →
      pdu = bs.drop (Dev.etherAt bs).2 → ∀ d₁, d₁ = s.dev.countFrame p 0 →
      (Dev.lldpTtl pdu = none ∨ 1500 < pdu.length → Gives (.lldpReceive p bs) s
        (d₁.setPort p { d₁.port p with badLldp := x.badLldp + 1 })) ∧
      (Dev.lldpTtl pdu = some 0 → pdu.length ≤ 1500 → Gives (.lldpReceive p bs) s
        (d₁.setPort p { d₁.port p with lldp := [], lldpAt := 0, lldpSrc := 0 })) ∧
      (∀ t, Dev.lldpTtl pdu = some t → t ≠ 0 → pdu.length ≤ 1500 → Does (.lldpReceive p bs) s (fun e =>
        e.port p = { d₁.port p with lldp := pdu, lldpAt := s.dev.alm10, lldpSrc := ofBE (slice bs 6 6) } ∧
        (s.dev.domOn 70 = true → (e.src (0x600 + p)).pend = true)))) ∧
    Gives (.lldpTtlExpire p) s (s.dev.setPort p { x with lldp := [], lldpAt := 0, lldpSrc := 0 })

/-- The Almanac and GPIO (R385 to R388, R575, R576): STEP and SET move the time, and a unit whose CC_TIME they pass
fires with SKIP; reading ALM_T0 latches the seconds for the reader, but not as a debug peek; a compare fires its
unit, which moves on by its period where it is periodic; a capture records the time less 3 fc; a PTM dialog latches
both times; a ball's holder sets its configuration. The model's choices here: log entries 78, 79 and 151. -/
def Obligations.AlmanacAndGpio : Prop :=
  ∀ s : State,
    (s.dev.domOn 70 = true → ∀ w : Agent, w.Reaches s.dev →
      (w.isMaster = true → ∀ (ofs : BitVec 64) (sec : BitVec 48),
        ∀ c ∈ [(Instr.almStep w ofs, ((s.dev.alm.time + ofs.toInt * 2 ^ 32) % (2 ^ 48 * 10 ^ 9 * 2 ^ 32 : Int)).toNat),
            (.almSet w sec, (sec.toNat * 10 ^ 9 + s.dev.alm.set0.toNat / 2 ^ 32) * 2 ^ 32)],
          Does c.1 s (fun e => e.alm.time = c.2 ∧ e.alm.mono = s.dev.alm.mono ∧ ∀ u < 8, ∀ x, x = s.dev.ccUnit u →
            (2 ≤ x.mode ∧ x.fired = false ∧ s.dev.unitHolder u / 256 ≠ 5 ∧ s.dev.alm.time < x.ns * 2 ^ 32 ∧ x.ns * 2 ^ 32 < c.2 →
              (e.ccUnit u).hit = true ∧ (e.ccUnit u).skip = true ∧ (e.src (0x630 + u)).pend = true) ∧
            (x.ns * 2 ^ 32 ≤ s.dev.alm.time ∨ c.2 ≤ x.ns * 2 ^ 32 → e.ccUnit u = x))) ∧
      (w = .host → Does (.almT0Read w) s (fun e => e.alm = { s.dev.alm with
        t1 := s.dev.alm.t1.put (w.orig s.dev).copy (BitVec.ofNat 64 (s.dev.alm.time / 2 ^ 32 / 10 ^ 9)) })) ∧
      (w = .debug → Does (.almT0Read w) s (fun e => e.alm = s.dev.alm)) ∧
      (∀ (t : Fin 96) (k : Fin 4) (op : MemOp), w = .thread t k → (s.dev.thread t k).park = .ldx op → op.pa = almAddr →
        op.size = 8 → (s.dev.thread t k).sb = [] → Does (.almT0Read w) s (fun e => e.alm = { s.dev.alm with
          t1 := s.dev.alm.t1.put (4 * t + k) (BitVec.ofNat 64 (s.dev.alm.time / 2 ^ 32 / 10 ^ 9)) }))) ∧
    (∀ (u : Fin 8) (x : CcUnit), x = s.dev.ccUnit u → s.dev.domOn 70 = true →
      (2 ≤ x.mode → x.fired = false → s.dev.unitHolder u / 256 ≠ 5 →
        (x.ns * 2 ^ 32 ≤ s.dev.alm.time → Does (.ccCompare u) s (fun e => (e.src (0x630 + u)).pend = true ∧
          (x.mode = 2 → e.ccUnit u = { x with hit := true, fired := true }) ∧
          (x.mode = 3 → e.ccUnit u = { x with hit := true }.setNs (x.ns + x.period.toNat)))) ∧
        (s.dev.alm.time < x.ns * 2 ^ 32 → Gives (.ccCompare u) s s.dev)) ∧
      (x.mode < 2 ∨ x.fired = true → Gives (.ccCompare u) s s.dev) ∧
      (x.mode = 1 → x.ball < 32 → s.dev.gpioFunc x.ball = 1 → ∀ rising : Bool,
        x.edge = 2 ∨ (x.edge = 0 ∧ rising = true) ∨ (x.edge = 1 ∧ rising = false) →
        Does (.ccCapture u rising) s (fun e => (e.src (0x630 + u)).pend = true ∧ e.ccUnit u = { x with hit := true }.setNs
          (((s.dev.alm.time - 3 * s.dev.almUnits) % (2 ^ 48 * 10 ^ 9 * 2 ^ 32 : Int)).toNat / 2 ^ 32)))) ∧
    (s.dev.domOn 69 = true → s.dev.domOn 70 = true → ∀ m : BitVec 64,
      Gives (.ptmDialog m) s { s.dev with alm := { s.dev.alm with ptmAlm := s.dev.alm10, ptmMaster := m } }) ∧
    (∀ (ses : Fin 6) (seq : BitVec 32) (b : Fin 32) (v : BitVec 16), s.dev.Accepts ses seq 0xA000 (b + 1) 2 →
      (Dev.gpioRange b v.toNat = false → Does (.gpioConfigure ses seq b v) s (fun e => e.Answered ses seq .range ∧
        e.hl.gpio = s.dev.hl.gpio)) ∧
      (Dev.gpioRange b v.toNat = true →
        (s.dev.ballHolder b = (if s.dev.isSb ses then 0x200 else 0x100) → s.dev.hl.dev ≠ .safe →
          Does (.gpioConfigure ses seq b v) s (fun e => e.Answered ses seq .ok ∧ e.gpioCfg b = v.toNat ∧
            (fld v.toNat 11 10 = 0 → bitN v.toNat 3 = true → e.gpioOut b = some (bitN v.toNat 4)))) ∧
        (s.dev.ballHolder b ≠ (if s.dev.isSb ses then 0x200 else 0x100) →
          Does (.gpioConfigure ses seq b v) s (fun e => e.Answered ses seq .denied ∧ e.hl.gpio = s.dev.hl.gpio))))

/-! Hedgerow. -/

/-- Bring-up of a bond and its end (R371, R372, R394, R395, R401): an enable whose lanes are free starts training, one
whose lanes are taken is refused; lanes that lock leave the largest width they allow, in rank order, or training starts
again; TRAIN and ALIGN let the bond come UP where every quad of its lanes is ON, or lead to MISMATCH; TRAIN units of one
training that disagree keep it down; a bond that makes no progress goes down and trains anew.
The model's choices here: log entries 80 and 81. -/
def Obligations.BondsComeUp : Prop :=
  ∀ (s : State) (b : Fin 16) (x : Bond) (cfg : Nat), x = s.dev.bond b → cfg = s.dev.obj 0x3400 (b + 1) →
    (∀ (ses : Fin 6) (seq : BitVec 32) (c : BitVec 31) (v w : Nat) (ls : List Nat), s.dev.Accepts ses seq 0x3400 (b + 1) 4 →
      v = 2 ^ 31 + c.toNat → w = fld v 30 28 → ls = Dev.bondLanes b v → fld v 23 0 = 0 →
      w ≤ 3 → fld v 27 26 % 2 ^ w = 0 → (w = 3 → b.val % 4 = 0 ∧ fld v 27 26 = 0) → bitN cfg 31 = false →
      (∀ l ∈ ls, s.dev.domOn (61 + l / 4) = true ∧ s.dev.hl.lanesFailed.getLsbD l = false) →
      ((∀ l ∈ ls, s.dev.laneTaken none (some b) l = false) → Does (.bondEnable ses seq b c) s (fun e =>
        e.Answered ses seq .ok ∧ e.obj 0x3400 (b + 1) = v ∧ e.Training b)) ∧
      ((∃ l ∈ ls, s.dev.laneTaken none (some b) l = true) → Does (.bondEnable ses seq b c) s (fun e =>
        e.Answered ses seq .conflict ∧ e.objs = s.dev.objs ∧ e.bonds = s.dev.bonds))) ∧
    (x.st ≠ .disabled → Gives (.align b) s (s.dev.setBond b { x with aligned := true })) ∧
    (x.st = .training → ∀ (num : Fin 16) (serial : BitVec 64) (n : Fin 9) (q r : BitVec 16) (p : PeerTrain),
      p = ⟨num, serial.toNat, n, q.toNat, r.toNat⟩ →
      (x.peer = none → Gives (.train b ⟨num, serial⟩ n q r) s (s.dev.setBond b { x with peer := some p })) ∧
      (∀ o, x.peer = some o → Gives (.train b ⟨num, serial⟩ n q r) s
        (s.dev.setBond b { x with peer := some p, mixed := x.mixed || o.bond != p.bond || o.serial != p.serial }))) ∧
    (∀ (p : PeerTrain) (on : Bool), x.st = .training → x.peer = some p →
      on = (Dev.bondLanes b cfg).all (fun l => s.dev.domOn (61 + l / 4)) →
      (x.aligned = true → x.mixed = false → p.lanes = x.lanes → on = true →
        (s.dev.obj 0x3403 (b + 1) = 0 ∨ s.dev.obj 0x3403 (b + 1) = p.serial → Does (.bondUp b) s (fun e =>
          e.bond b = { x with st := .up, txSeq := 0, rxSeq := 0, acked := 0, crq := p.q, crs := p.s } ∧
          (s.dev.domOn 70 = true → (e.src (0x620 + b)).pend = true))) ∧
        (s.dev.obj 0x3403 (b + 1) ≠ 0 → s.dev.obj 0x3403 (b + 1) ≠ p.serial →
          Gives (.bondUp b) s (s.dev.setBond b { x with st := .mismatch }))) ∧
      (x.aligned = false ∨ x.mixed = true ∨ p.lanes ≠ x.lanes ∨ on = false → Gives (.bondUp b) s s.dev)) ∧
    (x.st = .training → x.peer = none → Gives (.bondUp b) s s.dev) ∧
    (x.st = .training → ∀ (m : BitVec 8) (w : Nat) (ls : List Nat), ls = Dev.maskLanes (Dev.bondLanes b cfg) m.toNat →
      w ∈ [1, 2, 4, 8] → w ≤ ls.length → ls.length < 2 * w →
      (2 ^ fld cfg 25 24 ≤ w → Gives (.laneLockTimeout b m) s (s.dev.setBond b { x with lanes := w, ranks := ls.take w })) ∧
      (w < 2 ^ fld cfg 25 24 → Does (.laneLockTimeout b m) s (fun e => e.Training b))) ∧
    (x.st = .training → Does (.laneLockTimeout b 0) s (fun e => e.Training b)) ∧
    (x.st = .mismatch → Does (.mismatchRetry b) s (fun e => e.Training b)) ∧
    (x.st ≠ .mismatch → Gives (.mismatchRetry b) s s.dev) ∧
    (x.st = .up → x.replay ≠ [] → Does (.bondDown b) s (fun e => e.Training b ∧
      (s.dev.domOn 70 = true → (e.src (0x620 + b)).pend = true))) ∧
    (x.st = .up → x.replay = [] → Gives (.bondDown b) s s.dev)

/-- Traffic of a bond that is UP (R389 to R393, R396 to R400): an ACK frees what it covers and credits come back; a
NAK or the replay timer resends what is not acknowledged; a packet out of order or damaged is answered by one NAK; a
READ is answered with the bytes or the status, a WRITE is performed or answered WERR; RDATA ends the read with its
tag, as a timeout does, and reads that found no tag look again; a WERR is reported to who wrote. The model's choices
here: log entries 82 and 83. -/
def Obligations.BondTraffic : Prop :=
  ∀ (s : State) (b : Fin 16) (x : Bond) (c : Ctl) (k : Nat), x = s.dev.bond b → x.st = .up → x.txq = [] → x.rxSeq < 4096 → x.AckedBy c k →
    Gives (.idle b c) s (s.dev.setBond b (x.acks k c)) ∧
    (∀ (cmd : Instr) (y : Bond), (cmd = .nak b c ∧ y = x.acks k c) ∨ (cmd = .replayTimeout b ∧ y = x) →
      (y.replay = [] → Gives cmd s (s.dev.setBond b y)) ∧
      (y.replay ≠ [] → y.rounds < 4 → x.retq = 0 → x.rets = 0 → ∀ n, n = (y.replay.map HPacket.units).sum → Does cmd s (fun e =>
        e.bond b = { y with rounds := y.rounds + 1, resends := satAdd max64 x.resends 1, unit := x.unit + n } ∧
        ∃ us : List (List HUnit), e.out = (us.map (Out.peer b)).reverse ++ s.dev.out ∧
          us.map Dev.unitBytes = y.replay.map (fun p => p.encode x.rxSeq 0 0 0) ∧
          us.flatten.map HUnit.lane = (List.range n).map (fun i => x.ranks.getD ((x.unit + i) % max 1 x.ranks.length) 0))) ∧
      (y.replay ≠ [] → 4 ≤ y.rounds → Does cmd s (fun e => e.Training b))) ∧
    Does (.idleSend b) s (fun e => e.bond b = { x with
        retq := x.retq - min x.retq 255, rets := x.rets - min x.rets 255, unit := x.unit + 1 } ∧
      ∃ u, e.out = .peer b [u] :: s.dev.out ∧ u.data = false ∧ u.bytes.length = 32 ∧ u.bytes[0]? = some 0) ∧
    (x.nakSent = false → Does (.hedgerowDamagedPacket b) s (fun e => (e.bond b).nakSent = true ∧ (e.bond b).rxSeq = x.rxSeq ∧
      ∃ u, e.out = .peer b [u] :: s.dev.out ∧ u.data = false ∧ u.bytes[0]? = some 0xF0)) ∧
    (x.nakSent = true → Gives (.hedgerowDamagedPacket b) s s.dev) ∧
    (∀ (pseq : BitVec 12) (tag : BitVec 16) (addr : BitVec 40) (n : BitVec 16) (st : BitVec 8) (bs : List W8),
      (pseq.toNat ≠ (x.rxSeq + 1) % 4096 → ∀ cmd ∈ [Instr.hedgerowRead b pseq tag addr n c, .hedgerowWrite b pseq addr bs c,
          .rdata b pseq tag st bs c, .werr b pseq addr c], Does cmd s (fun e => (e.bond b).nakSent = true ∧
        (e.bond b).rxSeq = x.rxSeq ∧ e.mem = s.dev.mem ∧ e.threads = s.dev.threads)) ∧
      (pseq.toNat = (x.rxSeq + 1) % 4096 →
        (∀ (z : Bond) (pa : Nat) (d₁ : Dev) (q : HPacket), z = x.takes pseq.toNat 1 k c false →
          s.dev.inbound b addr.toNat n.toNat = .ok pa →
          (s.dev.setBond b z).memRead (.port (b / 2) false) 0 pa n.toNat = (d₁, .ok bs) →
          q = { seq := 0, type := 0x81, addr := 0, tag := tag.toNat, status := 0, bytes := n.toNat, data := bs } →
          (q.units ≤ z.crs → (z.replay.map HPacket.units).sum + q.units ≤ 2048 →
            Does (.hedgerowRead b pseq tag addr n c) s (fun e => e.mem = d₁.mem ∧ (e.bond b).rxSeq = pseq.toNat ∧
              (e.bond b).txq = [] ∧ (e.bond b).crs = z.crs - q.units ∧
              (e.bond b).replay = z.replay ++ [{ q with seq := (x.txSeq + 1) % 4096 }])) ∧
          (z.crs < q.units → Does (.hedgerowRead b pseq tag addr n c) s (fun e => e.mem = d₁.mem ∧
            (e.bond b).rxSeq = pseq.toNat ∧ (e.bond b).txq = [q] ∧ (e.bond b).replay = z.replay))) ∧
        (∀ why, s.dev.inbound b addr.toNat n.toNat = .error why → Does (.hedgerowRead b pseq tag addr n c) s (fun e =>
          e.mem = s.dev.mem ∧ (e.bond b).refused = x.refused + 1 ∧ ∃ q ∈ (e.bond b).txq ++ (e.bond b).replay,
            q.type = 0x81 ∧ q.tag = tag.toNat ∧ q.status = why ∧ q.data = [])) ∧
        (∀ (pa : Nat) (d₁ : Dev), s.dev.inbound b addr.toNat bs.length = .ok pa →
          (s.dev.setBond b (x.takes pseq.toNat (1 + (bs.length + 31) / 32) k c false)).memWrite pa bs = (d₁, .ok ()) →
          Gives (.hedgerowWrite b pseq addr bs c) s d₁) ∧
        (∀ why, s.dev.inbound b addr.toNat bs.length = .error why → Does (.hedgerowWrite b pseq addr bs c) s (fun e =>
          e.mem = s.dev.mem ∧ (e.bond b).refused = x.refused + 1 ∧ ∃ q ∈ (e.bond b).txq ++ (e.bond b).replay,
            q.type = 0x82 ∧ q.addr = addr.toNat ∧ q.status = why)) ∧
        (∀ z, z = x.takes pseq.toNat (1 + if st = 0 then (bs.length + 31) / 32 else 0) k c true →
          (∀ r d₁, x.reads.find? (fun r => r.tag == tag.toNat) = some r →
            d₁ = s.dev.setBond b { z with reads := x.reads.filter (fun r => r.tag != tag.toNat) } →
            (∀ t j op, r.who = .thread t j → (s.dev.thread t j).park = .ldx op → Gives (.rdata b pseq tag st bs c) s
              (s.dev.settleFreeze (d₁.ldxDone t j op (if st = 0 then .ok (padTo r.n bs) else .error .errCompl)).retryReads)) ∧
            (r.who = .taken → Gives (.rdata b pseq tag st bs c) s (s.dev.settleFreeze d₁.retryReads))) ∧
          (x.reads.find? (fun r => r.tag == tag.toNat) = none → Gives (.rdata b pseq tag st bs c) s (s.dev.setBond b z))) ∧
        (∀ z, z = x.takes pseq.toNat 1 k c true →
          (∀ (t : Fin 96) (j : Fin 4), SMap.find x.writers addr.toNat = some (.thread t j) → Gives (.werr b pseq addr c) s
            ((s.dev.setBond b z).asyncStore t j 0x31 (Dev.peerBase b + addr.toNat) t none)) ∧
          (SMap.find x.writers addr.toNat = some .host → Gives (.werr b pseq addr c) s
            ((s.dev.setBond b z).bump 0x3320 1))))) ∧
    (∀ (tag : BitVec 16) (r : HRead) (t j : Nat) (op : MemOp), x.reads.find? (fun r => r.tag == tag.toNat) = some r →
      r.who = .thread t j → (s.dev.thread t j).park = .ldx op →
      Gives (.hedgerowReadTimeout b tag) s (s.dev.settleFreeze
        ((s.dev.setBond b { x with reads := x.reads.filter (fun r => r.tag != tag.toNat) }).ldxDone t j op
          (.error .timeout)).retryReads)) ∧
    (∀ tag : BitVec 16, x.reads.find? (fun r => r.tag == tag.toNat) = none → Gives (.hedgerowReadTimeout b tag) s s.dev)

/-! PCIe and registers. -/

/-- The host's accesses and the PCIe block (R33, R282, R288, R295, R329, R402 to R408): a BAR2 write or read is made
at its address, a failing one counted, and one ended with Completer Abort is an uncorrectable error; a poisoned write
is counted and discarded, and a correctable error counted; BAR0 holds the mailbox; with the link down nothing is
taken, and in D3 all is unsupported; an AtomicOp is the bank's operation; a completion of any status or its timeout
ends the read with its tag; an unmasked vector's pending message is sent while Bus Master Enable is 1; a reset returns
the block to its defaults. The model's choices here: log entries 84, 85, 86, 87 and 175. -/
def Obligations.Pcie : Prop :=
  ∀ (s : State),
    (s.dev.hostReaches = true → s.dev.pcie.d3 = false →
      (∀ (o : BitVec 36) (bs : List W8) (d₁ : Dev),
        (s.dev.busWrite .host o.toNat bs = (d₁, .ok ()) → Gives (.pcieInboundWrite true o ⟨bs, .none⟩) s (s.dev.settleFreeze d₁)) ∧
        (∀ x, s.dev.busWrite .host o.toNat bs = (d₁, .error x) →
          Gives (.pcieInboundWrite true o ⟨bs, .none⟩) s (s.dev.settleFreeze (d₁.bump 0x3320 1))) ∧
        ((s.dev.bump 0x3320 5).busWrite .host o.toNat bs = (d₁, .ok ()) →
          Gives (.pcieInboundWrite true o ⟨bs, .correctable⟩) s (s.dev.settleFreeze d₁))) ∧
      (∀ (bar2 : Bool) (o : BitVec 36) (bs : List W8), Gives (.pcieInboundWrite bar2 o ⟨bs, .poisoned⟩) s
        (((s.dev.bump 0x3320 4).occur 0x63D).bump 0x3320 1)) ∧
      (∀ (o : BitVec 36) (n : BitVec 13), Dev.isXiSyncPa o.toNat = true → s.dev.syncing Orig.host.copy = true →
        Gives (.pcieInboundRead true o n) s s.dev) ∧
      (∀ (o : BitVec 36) (n : BitVec 13) (d₁ : Dev), (Dev.isXiSyncPa o.toNat = false ∨ s.dev.syncing Orig.host.copy = false) →
        (∀ bs, s.dev.busRead .host 0 o.toNat n.toNat = (d₁, .ok bs) →
          Gives (.pcieInboundRead true o n) s (s.dev.settleFreeze (d₁.emit (.completion true bs)))) ∧
        (∀ x, s.dev.busRead .host 0 o.toNat n.toNat = (d₁, .error x) →
          Gives (.pcieInboundRead true o n) s (s.dev.settleFreeze
            (((d₁.bump 0x3320 2).occur 0x63D).emit (.completion false []))))) ∧
      (∀ (o : BitVec 36) (bs : List W8), 0x1000 ≤ o.toNat → o.toNat + bs.length ≤ 0x1800 →
        Does (.pcieInboundWrite false o ⟨bs, .none⟩) s (fun e => e = { s.dev with dict := { s.dev.dict with mbReq := e.dict.mbReq } } ∧
          ∀ j, (∀ h : j < bs.length, e.dict.mbReq.get 0 (o.toNat - 0x1000 + j) = bs[j]) ∧
            (j < o.toNat - 0x1000 ∨ o.toNat - 0x1000 + bs.length ≤ j → e.dict.mbReq.get 0 j = s.dev.dict.mbReq.get 0 j))) ∧
      (∀ (o : BitVec 36) (n : BitVec 13), 0x2000 ≤ o.toNat → o.toNat + n.toNat ≤ 0x2800 →
        Gives (.pcieInboundRead false o n) s (s.dev.emit (.completion true
          ((List.range n.toNat).map (fun j => s.dev.dict.mbResp.get 0 (o.toNat - 0x2000 + j)))))) ∧
      (∀ (op : Fin 3) (n : BitVec 5) (o : BitVec 36) (x cmp : BitVec 64), n = 4 ∨ n = 8 →
        (o.toNat % n.toNat = 0 → ∀ d₁ old, s.dev.bankDo .host 0 op n.toNat o.toNat x.toNat cmp.toNat = (d₁, .ok old) →
          Gives (.pcieAtomicop op n o x cmp) s (s.dev.settleFreeze (d₁.emit (.completion true (toLE n.toNat old))))) ∧
        (o.toNat % n.toNat ≠ 0 → Gives (.pcieAtomicop op n o x cmp) s
          (((s.dev.bump 0x3320 2).occur 0x63D).emit (.completion false [])))) ∧
      (∀ (op : Fin 3) (o : BitVec 36) (x cmp : BitVec 64),
        Gives (.pcieAtomicop op 16 o x cmp) s ((s.dev.occur 0x63D).emit .unsupported)) ∧
      (∀ v : BitVec 11, s.dev.pcie.msixEn = true → s.dev.pcie.funcMask = false →
        (s.dev.pcie.pba.get false v.toNat = true → s.dev.pcie.busMaster = true → Does (.msixUnmask v) s (fun e =>
          (e.pcie.vecs.get {} v.toNat).mask = false ∧ e.pcie.pba.get false v.toNat = false ∧
          e.out = .msix v.toNat :: s.dev.out)) ∧
        (s.dev.pcie.pba.get false v.toNat = false ∨ s.dev.pcie.busMaster = false → Does (.msixUnmask v) s (fun e =>
          (e.pcie.vecs.get {} v.toNat).mask = false ∧ e.pcie.pba = s.dev.pcie.pba ∧ e.out = s.dev.out)))) ∧
    (∀ n old x cmp, n = 4 ∨ n = 8 → x < 2 ^ (8 * n) → cmp < 2 ^ (8 * n) →
      Dev.bankOp 0 n old x cmp = some ((old + x) % 2 ^ (8 * n)) ∧ Dev.bankOp 1 n old x cmp = some x ∧
      Dev.bankOp 2 n old x cmp = (if old = cmp then some x else none)) ∧
    (∀ (bar2 : Bool) (o : BitVec 36) (bs : List W8) (n : BitVec 13) (err : TlpErr),
      (s.dev.hostReaches = false → Gives (.pcieInboundWrite bar2 o ⟨bs, err⟩) s s.dev ∧ Gives (.pcieInboundRead bar2 o n) s s.dev) ∧
      (s.dev.hostReaches = true → s.dev.pcie.d3 = true →
        Gives (.pcieInboundWrite bar2 o ⟨bs, .none⟩) s ((s.dev.occur 0x63D).emit .unsupported) ∧
        Gives (.pcieInboundRead bar2 o n) s ((s.dev.occur 0x63D).emit .unsupported))) ∧
    (∀ (r : OutRead) (t : Fin 96) (k : Fin 4) (op : MemOp) (d₀ : Dev), s.dev.pcie.reads.find? (fun y => y.tag == r.tag) = some r →
      r.who = .thread t k → (s.dev.thread t k).park = .ldx op →
      d₀ = { s.dev with pcie := { s.dev.pcie with reads := s.dev.pcie.reads.filter (fun y => y.tag != r.tag) } } →
      (∀ bs, Gives (.pcieCompletion r.tag .success bs) s (s.dev.settleFreeze
        (d₀.ldxDone t k op (.ok (padTo r.len bs))).retryReads)) ∧
      (∀ (st : CplStatus) (bs : List W8), st ≠ .success → st ≠ .poisoned → Gives (.pcieCompletion r.tag st bs) s
        (s.dev.settleFreeze (d₀.ldxDone t k op (.error .errCompl)).retryReads)) ∧
      (∀ bs, Gives (.pcieCompletion r.tag .poisoned bs) s (s.dev.settleFreeze
        (((d₀.bump 0x3320 4).occur 0x63D).ldxDone t k op (.error .errCompl)).retryReads)) ∧
      (s.dev.pcie.reads.head? = some r → Gives .pcieCompletionTimeout s (s.dev.settleFreeze
        (((d₀.ldxDone t k op (.error .timeout)).retryReads.bump 0x3320 3).occur 0x63D)))) ∧
    (∀ tag st bs, st ≠ .poisoned → s.dev.pcie.reads.find? (fun y => y.tag == tag) = none → Gives (.pcieCompletion tag st bs) s s.dev) ∧
    (s.dev.pcie.reads = [] → Gives .pcieCompletionTimeout s s.dev) ∧
    Does .pcieReset s (fun e => e.pcie = { nextTag := e.pcie.nextTag } ∧ e.dict.mbStat = 0 ∧
      e.dict.sessions = s.dev.dict.sessions.del 0 ∧ (∀ c ∈ e.dict.oclaims, c.session ≠ 0) ∧
      (s.dev.domOn 69 = true → s.dev.domOn 70 = true → s.dev.pcie.up = true → s.dev.pcie.reads = [] → (e.src 0x63D).pend = true)) ∧
    (s.dev.domOn 69 = true → s.dev.pcie.up = false → Does .pcieLinkUp s (fun e =>
      e.pcie = { s.dev.pcie with up := true } ∧ (s.dev.domOn 70 = true → (e.src 0x63D).pend = true))) ∧
    (s.dev.domOn 69 = false → Gives .pcieLinkUp s s.dev)

/-- Writes of plain registers (R12, R33, R357, R402, R406, R407, R550): a write of a device register is made at its
address, and a failing one is recorded with the thread as ASYNC_STORE, counted for the host, captured in DBG_ACC; so
a master's write of EV_TGT0 stores it. The host's writes of configuration space set the bits they name, and pending
messages that become free to go are sent. The model's choices here: log entries 16 and 85. -/
def Obligations.RegisterWrites : Prop :=
  ∀ (s : State) (v : BitVec 64),
    (∀ (w : Agent) (o : BitVec 26) (wide : Bool) (pa n : Nat), w.Reaches s.dev → pa = 0xB00000000 + o.toNat →
      n = (if wide then 8 else 4) → ∀ d₁ : Dev,
      (s.dev.busWrite (w.orig s.dev) pa (toLE n v.toNat) = (d₁, .ok ()) →
        Gives (.registerWrite (.device w o wide) v) s (s.dev.settleFreeze (w.ends s.dev d₁))) ∧
      (∀ x, s.dev.busWrite (w.orig s.dev) pa (toLE n v.toNat) = (d₁, .error x) →
        Gives (.registerWrite (.device w o wide) v) s (s.dev.settleFreeze (match w with
          | .thread t k => d₁.asyncStore t k x.code pa t none
          | .host => d₁.bump 0x3320 1
          | .debug => { d₁ with dbg := { d₁.dbg with err := true, code := BitVec.ofNat 8 x.code } })))) ∧
    (∀ (w : Agent) (n : Fin 0x7FF), w.Reaches s.dev → w.isMaster = true → s.dev.domOn 70 = true →
      Gives (.registerWrite (.device w (BitVec.ofNat 26 (0x1100008 + 0x20 * n)) true) v) s
        (w.ends s.dev (s.dev.setSrc n { s.dev.src n with tgt0 := v }))) ∧
    (s.dev.hostReaches = true → ∀ p, p = s.dev.pcie →
      Gives (.registerWrite .pcieD3hot v) s { s.dev with pcie := { p with d3 := v.getLsbD 0 } } ∧
      Gives (.registerWrite .pcieCompletionTimeout v) s { s.dev with pcie := { p with cto := v.setWidth 4 } } ∧
      (∀ (c : RegTarget) (en mask bme : Bool), (c = .pcieMsixEnable ∧ en = v.getLsbD 0 ∧ mask = p.funcMask ∧ bme = p.busMaster) ∨
          (c = .pcieFunctionMask ∧ en = p.msixEn ∧ mask = v.getLsbD 0 ∧ bme = p.busMaster) ∨
          (c = .pcieBusMaster ∧ en = p.msixEn ∧ mask = p.funcMask ∧ bme = v.getLsbD 0) →
        Does (.registerWrite c v) s (fun e => e.pcie.msixEn = en ∧ e.pcie.funcMask = mask ∧ e.pcie.busMaster = bme ∧
          e.pcie.vecs = p.vecs ∧
          (∀ i, e.pcie.pba.get false i = (p.pba.get false i && (!en || mask || !bme || (p.vecs.get {} i).mask))) ∧
          ∀ i, p.pba.get false i = true → en = true → mask = false → bme = true → (p.vecs.get {} i).mask = false →
            Out.msix i ∈ e.out)))

/-! Power, clocks and temperature. -/

/-- Requests for power (R38, R39, R305, R517, R520): a domain request for ON waits for its turn, one for OFF or
retention begins to power the domain down, and one whose needed or needing domains stand wrong is refused
DEPENDENCY; a device request begins what it names, is refused BUSY while another runs; FALLOW powers down when its
delay is over, and the wake timer acts as READY. The model's choices here: log entries 125, 127 and 129. -/
def Obligations.PowerRequests : Prop :=
  ∀ (s : State) (h : Hl), h = s.dev.hl →
    (∀ (ses : Fin 6) (seq : BitVec 32) (pd : Fin 76) (x : Domain), x = s.dev.dom pd → pd.val ≠ 0 →
      s.dev.Accepts ses seq 0x2010 (pd + 1) 1 → h.serving →
      ((∀ m ∈ needs pd, s.dev.domOn m = true) →
        (x.down → Does (.domainRequestOn ses seq pd) s (fun e => e.Answered ses seq .ok ∧
          e.dom pd = { x with waiting := true, target := 1 })) ∧
        (x.st = .on → Does (.domainRequestOn ses seq pd) s (fun e => e.Answered ses seq .ok ∧
          e.dom pd = { x with target := 1 }))) ∧
      (x.down → (∃ m ∈ needs pd, s.dev.domOn m = false) → Does (.domainRequestOn ses seq pd) s (fun e =>
        e.Answered ses seq .dependency ∧ e.doms = s.dev.doms)) ∧
      (x.st = .on → (∀ m ∈ neededBy pd, (s.dev.dom m).waiting = false ∧ (s.dev.dom m).st ≠ .on ∧ (s.dev.dom m).st ≠ .waking) →
        (pd.val = 69 → ses.val ≠ 0) → Does (.domainRequestOff ses seq pd) s (fun e => e.Answered ses seq .ok ∧
          (e.dom pd).st = .sleeping ∧ (e.dom pd).toRet = false ∧ (e.dom pd).target = 0)) ∧
      (x.st = .on → (∃ m ∈ neededBy pd, (s.dev.dom m).st = .on) → Does (.domainRequestOff ses seq pd) s (fun e =>
        e.Answered ses seq .dependency ∧ e.doms = s.dev.doms)) ∧
      (x.st = .waking ∨ x.st = .sleeping → ∀ c ∈ [Instr.domainRequestOn ses seq pd, .domainRequestOff ses seq pd],
        Does c s (fun e => e.Answered ses seq .busy ∧ e.doms = s.dev.doms))) ∧
    (∀ (ses : Fin 6) (seq : BitVec 32) (k : Fin 8), s.dev.Accepts ses seq 0x2010 (k + 54) 1 →
      (s.dev.domOn (53 + k) = true → h.serving → Does (.domainRequestRetention ses seq k) s (fun e =>
        e.Answered ses seq .ok ∧ (e.dom (53 + k)).st = .sleeping ∧ (e.dom (53 + k)).toRet = true ∧ (e.dom (53 + k)).target = 2)) ∧
      (s.dev.domOn (53 + k) = false → Does (.domainRequestRetention ses seq k) s (fun e =>
        e.Answered ses seq .range ∧ e.doms = s.dev.doms))) ∧
    (∀ (ses : Fin 6) (seq : BitVec 32), s.dev.Accepts ses seq 0x2001 0 1 →
      (h.serving → h.devOpen = false →
        (h.dev ≠ .fallow → Does (.deviceRequestFallow ses seq) s (fun e => e.Answered ses seq .ok ∧
          e.hl.devReq = 1 ∧ e.hl.fallowDue = true ∧ e.hl.devOpen = true ∧
          ∀ k, (s.dev.dom k).waiting = false → e.dom k = s.dev.dom k)) ∧
        (h.dev = .fallow → Does (.deviceRequestReady ses seq) s (fun e => e.Answered ses seq .ok ∧ e.hl.devReq = 2 ∧
          (∀ k ∈ bootPath h.boot, (s.dev.dom k).down → e.dom k = { s.dev.dom k with waiting := true, target := 1 }) ∧
          (bootPath h.boot = [] → h.falling = false → e.hl.dev = .ready ∨ e.hl.dev = .run))) ∧
        (h.dev ≠ .fallow → ses.val ≠ 0 → Does (.deviceRequestReady ses seq) s (fun e => e.Answered ses seq .ok ∧
          e.hl.devReq = 2 ∧ ∀ k, 1 ≤ k → k ≤ 75 → k ∉ bootPath h.boot → (s.dev.dom k).st = .on → (e.dom k).st = .sleeping)) ∧
        Does (.deviceRequestRunAll ses seq) s (fun e => e.Answered ses seq .ok ∧ e.hl.devReq = 3 ∧
          ∀ k, 1 ≤ k → k ≤ 75 → (s.dev.dom k).down → e.dom k = { s.dev.dom k with waiting := true, target := 1 })) ∧
      (h.devOpen = true ∨ ¬ h.serving → ∀ c ∈ [Instr.deviceRequestFallow ses seq, .deviceRequestReady ses seq,
          .deviceRequestRunAll ses seq], Does c s (fun e => e.Answered ses seq .busy ∧ e.doms = s.dev.doms ∧ e.hl = h))) ∧
    (h.fallowDue = true → Does .fallowDelayExpiry s (fun e => e.hl.fallowDue = false ∧
      (∀ k, 1 ≤ k → k ≤ 75 → (s.dev.dom k).st = .on ∨ (s.dev.dom k).st = .waking → (e.dom k).st = .sleeping) ∧
      ((∀ k ∈ domOrder, s.dev.activeDom k = false) → h.dev = .ready ∨ h.dev = .run → e.hl.dev = .fallow))) ∧
    (h.fallowDue = false → Gives .fallowDelayExpiry s s.dev) ∧
    (h.dev = .fallow → h.leaving = false → h.dwake = false → s.dev.obj 0x2004 0 ≠ 0 → Does .wakeTimerExpiry s (fun e =>
      e.obj 0x2004 0 = 0 ∧ e.hl.devReq = 2 ∧
      ∀ k ∈ bootPath h.boot, (s.dev.dom k).down → e.dom k = { s.dev.dom k with waiting := true, target := 1 })) ∧
    (h.dev ≠ .fallow → Gives .wakeTimerExpiry s s.dev)

/-- How domains wake, power down and are lost (R303, R305, R512, R515, R516, R518, R519, R523): the first waiting domain
whose needed domains are ON takes an inrush turn; a PLL locks; a domain reports ON with its memories and tillers
cold, OFF, RETENTION, or ON again with its memory as it was; a rail or PLL that fails takes the domain and those
that need it; the loss of VDD_CORE or VDD_HL leads to SAFE. The model's choices here: log entries 128, 129 and 130.
-/
def Obligations.DomainsChange : Prop :=
  ∀ (s : State) (h : Hl), h = s.dev.hl →
    (∀ k, domOrder.find? (fun k => (s.dev.dom k).waiting && ((s.dev.dom k).st == .off || (s.dev.dom k).st == .lost) &&
        (needs k).all s.dev.domOn) = some k → ∀ n, n = (domOrder.filter (fun k => (s.dev.dom k).ramping &&
        !(s.dev.dom k).monitored h.time.toNat)).length →
      (n < 8 → Does .inrushTurn s (fun e => e.dom k = { s.dev.dom k with
        st := .waking, waiting := false, ramping := true
        rampAt := h.time.toNat, railOk := false, locked := false, fromRet := false, toRet := false })) ∧
      (8 ≤ n → Gives .inrushTurn s s.dev)) ∧
    (∀ (k : Fin 76) (x : Domain), x = s.dev.dom k → k.val ≠ 0 →
      (x.st = .waking → Gives (.pllLock k) s (s.dev.setDom k { x with ramping := false, railOk := true, locked := true })) ∧
      (x.st = .waking → x.fromRet = false → x.locked = true → Does (.domainOn k) s (fun e => (e.dom k).st = .on ∧
        (s.dev.domOn 70 = true ∨ k.val = 70 → (e.src (0x590 + k)).pend = true) ∧
        (∀ c, inDomain k c → e.mem.byte? c = some 0) ∧ (∀ c, ¬ inDomain k c → e.mem.byte? c = s.dev.mem.byte? c) ∧
        (k.val ≤ 48 → ∀ t j, t = 2 * k.val - 2 ∨ t = 2 * k.val - 1 → j < 4 → e.thread t j = {}))) ∧
      (x.st = .waking → x.locked = false → Gives (.domainOn k) s s.dev) ∧
      (x.st = .sleeping → x.toRet = false → (∀ m ∈ neededBy k, s.dev.activeDom m = false) →
        Does (.domainOffComplete k) s (fun e => e.dom k = { x with st := .off, railOk := false, ramping := false, locked := false } ∧
          (s.dev.domOn 70 = true → (e.src (0x590 + k)).pend = true))) ∧
      (x.st = .sleeping → (∃ m ∈ neededBy k, s.dev.activeDom m = true) → Gives (.domainOffComplete k) s s.dev) ∧
      (∀ c ∈ [(Instr.railDroop k, x.monitored h.time.toNat, 1), (.railFloor k, x.monitored h.time.toNat, 2),
          (.pllLockTimeout k, hasPll k && x.st == .waking && !x.locked, 4), (.pllLockLoss k, hasPll k && x.st == .on, 4)],
        (c.2.1 = true → Does c.1 s (fun e => (e.dom k).st = .lost ∧ (e.dom k).cause = BitVec.ofNat 16 (k * 256 + c.2.2) ∧
          (e.dom k).lost = BitVec.ofNat 32 (satAdd (2 ^ 32 - 1) x.lost.toNat 1) ∧
          (∀ m ∈ neededBy k, s.dev.activeDom m = true ∨ ((s.dev.dom m).waiting = true ∧ (c.2.2 = 4 ∨ (s.dev.dom m).st ≠ .retention)) →
            (e.dom m).st = .lost ∧ (e.dom m).cause = BitVec.ofNat 16 (k * 256 + 3)) ∧
          (∀ m : Nat, m ≠ k.val → m ∉ neededBy k → (∀ j ∈ neededBy k, m ∉ neededBy j) → e.dom m = s.dev.dom m) ∧
          (k.val ≠ 70 → s.dev.domOn 70 = true → (e.src (0x590 + k)).pend = true))) ∧
        (c.2.1 = false → Gives c.1 s s.dev)) ∧
      (x.monitored h.time.toNat = true → Gives (.droopRideThrough k) s
        { s.dev with hl := { h with dips := BitVec.ofNat 32 (satAdd (2 ^ 32 - 1) h.dips.toNat 1) } })) ∧
    (∀ (j : Fin 8) (x : Domain), x = s.dev.dom (53 + j) →
      (x.st = .sleeping → x.toRet = true → Does (.retentionEntryComplete j) s (fun e =>
        e.dom (53 + j) = { x with st := .retention, toRet := false } ∧ e.mem = s.dev.mem)) ∧
      (x.st = .waking → x.fromRet = true → x.locked = true → Does (.retentionExitComplete j) s (fun e =>
        (e.dom (53 + j)).st = .on ∧ e.mem = s.dev.mem ∧ (s.dev.domOn 70 = true → (e.src (0x590 + (53 + j))).pend = true)))) ∧
    (h.por = false → h.dev ≠ .held → h.dev ≠ .safe →
      (h.dev ≠ .cold ∨ (h.stage ≠ .straps ∧ h.stage ≠ .rails) →
        Does .vddCoreCollapse s (fun e => s.dev.Safe e 4 0 ∧ e.hl.coreRail = false)) ∧
      Does .vddHlFault s (fun e => s.dev.Safe e 3 0 ∧ e.hl.hlRail = false)) ∧
    (h.dev = .held ∨ h.dev = .safe → Gives .vddCoreCollapse s s.dev ∧ Gives .vddHlFault s s.dev)

/-- Temperature and clocks (R510, R511, R525 to R527): a sample sets the readings and finds the first sensor at 110 °C
or more; the throttle steps up above its threshold and down 3 °C below it, raising its source, and a step other than
0 makes the Piste bound void; the confirmed trip leads to SAFE; the crystal and the reference clock are lost and
return. The watchdog and RST_REQ_N (R528 to R530): a configuration and a kick restart the count where the watchdog
is enabled in READY or RUN; the warning comes once when PRE is reached; at zero RST_REQ_N is driven and the expiry
counted; a reset request drives it too, the pulse ends, and a request not answered is counted. The model's choices
here: log entries 126, 133, 137, 138 and 139. -/
def Obligations.TemperatureClocksWatchdog : Prop :=
  (∀ (s : State) (h : Hl), h = s.dev.hl →
     (∀ rs : List W16, rs.length = 17 → h.por = false → Does (.thermalSample rs) s (fun e =>
       (∀ i, i < 17 → e.hl.temps.get 0x8000 (i + 1) = rs.getD i 0) ∧
       (∀ n, e.hl.hot = some n → 1 ≤ n ∧ n ≤ 17 ∧ s.dev.sensorOn n = true ∧ 1760 ≤ sx 16 (rs.getD (n - 1) 0).toNat) ∧
       (e.hl.hot = none → ∀ n, 1 ≤ n → n ≤ 17 → s.dev.sensorOn n = true → sx 16 (rs.getD (n - 1) 0).toNat < 1760))) ∧
     (∀ (r t : Int), s.dev.hottest = some r → t = sx 8 (s.dev.obj 0x9031 0) * 16 → s.dev.obj 0x9033 0 ≠ 0 →
       (t < r → Does .throttleStepUp s (fun e => e.hl.throttle.toNat = min 3 (h.throttle.toNat + 1) ∧
         (h.throttle ≠ 3 → (s.dev.domOn 70 = true → (e.src 0x63A).pend = true) ∧
           ∀ n < 4, ∀ k < 16, s.dev.slotLive n k = true → (e.pslot n k).void_ = true))) ∧
       (r ≤ t → Gives .throttleStepUp s s.dev) ∧
       (r < t - 48 → Does .throttleStepDown s (fun e => e.hl.throttle.toNat = h.throttle.toNat - 1 ∧
         (h.throttle ≠ 0 → s.dev.domOn 70 = true → (e.src 0x63A).pend = true))) ∧
       (t - 48 ≤ r → Gives .throttleStepDown s s.dev)) ∧
     (s.dev.obj 0x9033 0 = 0 → Gives .throttleStepUp s s.dev ∧ Gives .throttleStepDown s s.dev) ∧
     (∀ n, h.hot = some n → h.por = false → h.dev ≠ .held → h.dev ≠ .safe →
       Does .thermalTrip s (fun e => s.dev.Safe e 5 (BitVec.ofNat 16 n))) ∧
     (h.hot = none → Gives .thermalTrip s s.dev) ∧
     Gives .xin32kLoss s { s.dev with hl := { h with xtal := false } } ∧
     Gives .xin32kReturn s { s.dev with hl := { h with xtal := true } } ∧
     Gives .refclkLoss s { s.dev with hl := { h with refclk := false } } ∧
     Gives .refclkReturn s { s.dev with hl := { h with refclk := true } }) ∧
  (∀ (s : State) (h : Hl), h = s.dev.hl →
     (∀ (ses : Fin 6) (seq : BitVec 32),
       (s.dev.Accepts ses seq 0x2040 0 4 → ∀ (v : BitVec 32) (t p : Nat) (ok : Prop), t = fld v.toNat 15 0 → p = fld v.toNat 29 16 →
         (ok ↔ v.getLsbD 31 = false ∨ (10 ≤ t ∧ t ≤ 60000 ∧ p < t)) →
         (¬ ok → Does (.watchdogConfigure ses seq v) s (fun e => e.Answered ses seq .range ∧ e.hl = h)) ∧
         (ok → v.getLsbD 31 = false → h.wdCfg.getLsbD 31 = true → s.dev.isSb ses = false →
           Does (.watchdogConfigure ses seq v) s (fun e => e.Answered ses seq .denied ∧ e.hl = h)) ∧
         (ok → v.getLsbD 31 = true ∨ h.wdCfg.getLsbD 31 = false ∨ s.dev.isSb ses = true →
           Does (.watchdogConfigure ses seq v) s (fun e => e.Answered ses seq .ok ∧ e.hl = { h with
             wdCfg := v, wdWarned := false, wdRun := v.getLsbD 31 && (h.dev == .ready || h.dev == .run)
             wdLeft := if v.getLsbD 31 && (h.dev == .ready || h.dev == .run) then t * 4000 else 0 }))) ∧
       (s.dev.Accepts ses seq 0x2041 0 4 → Does (.watchdogKick ses seq) s (fun e => e.Answered ses seq .ok ∧ e.hl = { h with
         wdWarned := false, wdRun := h.wdCfg.getLsbD 31 && (h.dev == .ready || h.dev == .run)
         wdLeft := if h.wdCfg.getLsbD 31 && (h.dev == .ready || h.dev == .run) then fld h.wdCfg.toNat 15 0 * 4000 else 0 })) ∧
       (s.dev.Accepts ses seq 0x2030 0 1 →
         (h.rstReq = 0 → Does (.resetRequest ses seq) s (fun e => e.Answered ses seq .ok ∧ e.hl = { h with rstReq := 2, rstOpen := 2 } ∧
           Out.rstReq true ∈ e.out)) ∧
         (h.rstReq ≠ 0 → Does (.resetRequest ses seq) s (fun e => e.Answered ses seq .ok ∧ e.hl = h)))) ∧
     (h.wdRun = true → s.dev.wdFrozen = false →
       (∀ p, p = fld h.wdCfg.toNat 29 16 →
         (p ≠ 0 → h.wdWarned = false → h.wdLeft ≤ p * 4000 → Does .watchdogPretimeout s (fun e =>
           e.hl = { h with wdWarned := true } ∧ (s.dev.domOn 70 = true → (e.src 0x63B).pend = true))) ∧
         (p = 0 ∨ h.wdWarned = true ∨ p * 4000 < h.wdLeft → Gives .watchdogPretimeout s s.dev)) ∧
       (h.wdLeft = 0 → h.rstReq = 0 → Gives .watchdogExpiry s ({ s.dev with hl := { h with
         wdRun := false, wdWarned := false, wdExpiries := BitVec.ofNat 32 (satAdd (2 ^ 32 - 1) h.wdExpiries.toNat 1)
         rstReq := 1, rstOpen := 1 } }.emit (.rstReq true))) ∧
       (h.wdLeft ≠ 0 → Gives .watchdogExpiry s s.dev)) ∧
     (h.wdRun = false → Gives .watchdogPretimeout s s.dev ∧ Gives .watchdogExpiry s s.dev) ∧
     (h.rstReq ≠ 0 → Gives .rstReqPulseEnd s ({ s.dev with hl := { h with rstReq := 0 } }.emit (.rstReq false))) ∧
     (h.rstOpen ≠ 0 → Gives .rstReqUnanswered s { s.dev with hl := { h with
       rstOpen := 0, unanswered := BitVec.ofNat 32 (satAdd (2 ^ 32 - 1) h.unanswered.toNat 1) } }))


/-! Reset, start-up and the watchdog. -/

/-- Resets and start-up (R527, R531 to R537, R541 to R545, R581, R582): RESET_N low for 500 ns or more holds the device
with all its blocks cold but what a warm reset keeps; POR leaves nothing; start-up samples the straps, waits for
rails and temperature, tests the logic groups one after the other, the memories and the lanes, and ends in FALLOW or
on its way to READY; a failed test leads to SAFE. The model's choices here: log entries 131, 134, 135, 136, 140 and
141. -/
def Obligations.ResetAndStartup : Prop :=
  ∀ (s : State) (h : Hl), h = s.dev.hl →
    (∀ ns, 500 ≤ ns → h.resetLow = false → h.por = false → Does (.resetNAssert ns) s (fun e =>
      e.hl.dev = .held ∧ e.hl.resetLow = true ∧ e.hl.time = h.time ∧ e.hl.boot = h.boot ∧
      e.hl.resetCause = (if h.rstReq = 1 then 3 else if h.rstReq = 2 then 4 else 2) ∧
      e.hl.warmResets = BitVec.ofNat 32 (satAdd (2 ^ 32 - 1) h.warmResets.toNat 1) ∧
      (∀ k, e.domOn k = (k == 0)) ∧ e.threads = [] ∧ e.seeds = [] ∧ (∀ c, e.mem.byte? c = some 0) ∧ e.ports = [] ∧
      e.furrows = [] ∧ e.dict.sessions = [] ∧ e.dict.oclaims = [] ∧
      ∀ i n, n < 256 → e.obj i n = (if s.dev.keepsObj i n then s.dev.obj i n else Dev.objCold i n))) ∧
    (∀ ns, 500 ≤ ns → h.resetLow = false → h.por = true → Gives (.resetNAssert ns) s { s.dev with hl := { h with resetLow := true } }) ∧
    (∀ ns, ns < 100 → Gives (.resetNAssert ns) s s.dev) ∧
    (h.resetLow = true → h.por = false → h.dev = .held → Does .resetNRelease s (fun e => e.hl = { h with
      resetLow := false, dev := .cold, stage := .straps, stStart := h.time.toNat } ∧ e.dict.beatAt = h.time.toNat)) ∧
    Does .porAssert s (fun e => e.hl.por = true ∧ e.hl.resetLow = h.resetLow ∧ e.objs = [] ∧ e.doms = [] ∧ e.threads = [] ∧
      e.dict = {} ∧ (∀ c, e.mem.byte? c = some 0) ∧ (h.rstReq ≠ 0 → e.out = .rstReq false :: s.dev.out)) ∧
    (h.por = true → Gives .porRelease s { s.dev with hl := { h with
      por := false, hlRail := true, time := 0, dev := if h.resetLow then .held else .cold } }) ∧
    (h.por = false → Gives .porRelease s s.dev) ∧
    (∀ (boot clk : BitVec 2) (lb off : Bool) (mb : BitVec 5), h.por = false → h.dev = .cold → h.stage = .straps →
      Does (.strapSample boot clk lb off mb) s (fun e => e.hl = { h with
        boot := boot, clksel := clk, lbistEn := lb, dbgOff := off, mbId := if h.porSample then mb else h.mbId
        porSample := false, lbistRun := lb || h.lbistNext, stage := .rails } ∧ e.dict.owner = decide (boot = 2))) ∧
    (h.por = false → h.dev = .cold → h.stage = .rails →
      Gives .startupRailCheck s { s.dev with hl := { h with hlRail := true, coreRail := true, stage := .temp } }) ∧
    (h.por = false → h.dev = .cold → h.stage = .temp → s.dev.reading 17 ≠ 0x8000 →
      (1600 < sx 16 (s.dev.reading 17) → Gives .startupTempCheck s s.dev) ∧
      (sx 16 (s.dev.reading 17) ≤ 1600 →
        (h.lbistRun = true → Does .startupTempCheck s (fun e => e.hl.stage = .logic ∧ e.hl.lbistNext = false ∧
          ∀ k ∈ groupDomains 0, e.domOn k = true)) ∧
        (h.lbistRun = false → Does .startupTempCheck s (fun e => e.hl.stage = .memory ∧
          ∀ k, 1 ≤ k → k ≤ 74 → e.domOn k = true)))) ∧
    (h.dev = .cold → h.stage = .logic → ∀ (pass : Bool) (g : Nat) (done : W8), g = h.groupsRun →
      done = (if pass then h.groups ||| BitVec.ofNat 8 (2 ^ g) else h.groups) →
      (g < 7 → Does (.logicSelfTestGroup pass) s (fun e => e.hl.groupsRun = g + 1 ∧ e.hl.groups = done ∧ e.hl.stage = .logic ∧
        ∀ k, e.domOn k = (k == 0 || (groupDomains (g + 1)).contains k))) ∧
      (7 ≤ g → (done = 0xFF → Does (.logicSelfTestGroup pass) s (fun e => e.hl.stage = .memory ∧
          ∀ k, 1 ≤ k → k ≤ 74 → e.domOn k = true)) ∧
        (done ≠ 0xFF → Does (.logicSelfTestGroup pass) s (fun e => s.dev.Safe e 1 (BitVec.ofNat 16 (255 - done.toNat)))))) ∧
    (h.dev = .cold → h.stage = .memory →
      (∀ (sp : List (BitVec 8 × BitVec 8)) (add : Nat → Nat),
        (∀ b, add b = ((sp.filter (fun p => p.1.toNat == b)).map (fun p => p.2.toNat)).sum) →
        (∀ unit : BitVec 16, Does (.memorySelfTest unit sp false) s (fun e => s.dev.Safe e 2 unit)) ∧
        (∀ n : Fin 96,
          ((∀ b < 16, s.dev.granBank n b + add b ≤ 4) → Does (.memorySelfTest (BitVec.ofNat 16 n) sp true) s (fun e =>
            (∀ b < 16, e.granBank n b = s.dev.granBank n b + add b) ∧
            (∀ m : Fin 96, m ≠ n → ∀ b < 16, e.granBank m b = s.dev.granBank m b) ∧ e.hl = { h with fixGran := e.hl.fixGran })) ∧
          (∀ b < 16, 4 < s.dev.granBank n b + add b →
            Does (.memorySelfTest (BitVec.ofNat 16 n) sp true) s (fun e => s.dev.Safe e 2 (BitVec.ofNat 16 n)))) ∧
        (∀ n : Fin 8,
          ((∀ b < 256, s.dev.loamBank n b + add b ≤ 4) → Does (.memorySelfTest (BitVec.ofNat 16 (0x300 + n)) sp true) s (fun e =>
            (∀ b < 256, e.loamBank n b = s.dev.loamBank n b + add b) ∧
            (∀ m : Fin 8, m ≠ n → ∀ b < 256, e.loamBank m b = s.dev.loamBank m b) ∧ e.hl = { h with fixLoam := e.hl.fixLoam })) ∧
          (∀ b < 256, add b ≠ 0 → 4 < s.dev.loamBank n b + add b →
            Does (.memorySelfTest (BitVec.ofNat 16 (0x300 + n)) sp true) s (fun e =>
              s.dev.Safe e 2 (BitVec.ofNat 16 (0x300 + n)))))) ∧
      (h.lbistRun = true → h.loopDone = false → ∀ v : BitVec 32,
        Gives (.laneLoopback v) s { s.dev with hl := { h with lanesFailed := v, loopDone := true } }) ∧
      (h.lbistRun = false ∨ h.loopDone = true →
        Does .startupEnd s (fun e => e.hl.stage = .done ∧ e.hl.stState = 2 ∧ (∀ k, e.domOn k = (k == 0)) ∧
          (h.boot = 3 → e.hl.dev = .fallow) ∧ (h.boot = 2 → e.hl.dev = .ready) ∧
          ∀ k ∈ bootPath h.boot, (e.dom k).waiting = true)) ∧
      (h.lbistRun = true → h.loopDone = false → Gives .startupEnd s s.dev))

/-! Debug. -/

/-- The debug access port (R546 to R553, R558, R562, R564, R566): the TAP's instruction and its reset; a read captures
the value, and an access that fails its code; a write is made as the register takes it; the windows of a halted
thread, TD_PC and TT_PTR take what is written, and are refused with 0x40 where the thread is not halted; the debug
lock resumes every thread and ends every freeze. The model's choices here: log entries 142, 143, 144, 145, 146 and
147. -/
def Obligations.DebugAccess : Prop :=
  ∀ (s : State) (g : Dbg), g = s.dev.dbg →
    Gives .tapReset s { s.dev with dbg := { g with tlr := true, ir := 2, repl := false } } ∧
    (∀ ir : BitVec 8, s.dev.hl.por = false → g.tlr = false →
      (ballControl ir.toNat = true → s.dev.hl.dev ≠ .held →
        Gives (.tapIrUpdate ir) s { s.dev with dbg := { g with ir := 0xFF, repl := true } }) ∧
      (ballControl ir.toNat = false ∨ s.dev.hl.dev = .held →
        Gives (.tapIrUpdate ir) s { s.dev with dbg := { g with ir := ir, repl := false } })) ∧
    (s.dev.hl.por = false → g.tlr = true → Does .tapLeavesTestLogicReset s (fun e => e.dbg = { g with tlr := false } ∧
      (s.dev.debugClosed = true → e.hl = s.dev.hl) ∧
      (s.dev.debugClosed = false → e.hl = { s.dev.hl with wdCfg := s.dev.hl.wdCfg ||| 0x40000000 }))) ∧
    (s.dev.dbgSelected = false → ∀ (sp wide : Bool) (a : BitVec 46) (v : BitVec 64),
      Gives (.dbgAccRead sp wide a) s s.dev ∧ Gives (.dbgAccWrite sp wide a v) s s.dev) ∧
    (s.dev.dbgSelected = true →
      (∀ (a : BitVec 46) (wide : Bool) (v : BitVec 64),
        (∀ x, s.dev.spaceRead a.toNat = .ok x → Gives (.dbgAccRead true wide a) s
          { s.dev with dbg := { g with err := false, code := 0, data := BitVec.ofNat 64 x } }) ∧
        (∀ c, s.dev.spaceRead a.toNat = .error c → Gives (.dbgAccRead true wide a) s
          { s.dev with dbg := { g with err := true, code := BitVec.ofNat 8 c, data := 0 } }) ∧
        (∀ d₁, s.dev.spaceWrite a.toNat v.toNat = .ok d₁ → Gives (.dbgAccWrite true wide a v) s
          (s.dev.settleFreeze { d₁ with dbg := { d₁.dbg with err := false, code := 0, data := BitVec.ofNat 64 g.data.toNat } })) ∧
        (∀ c, s.dev.spaceWrite a.toNat v.toNat = .error c → Gives (.dbgAccWrite true wide a v) s
          { s.dev with dbg := { g with err := true, code := BitVec.ofNat 8 c } }) ∧
        (a.toNat < 2 ^ 36 → ∀ (n : Nat) (d₁ : Dev), n = (if wide then 8 else 4) →
          (Dev.isXiSyncPa a.toNat = true → s.dev.syncing (Orig.copy .debug) = true → Gives (.dbgAccRead false wide a) s s.dev) ∧
          (∀ bs, (Dev.isXiSyncPa a.toNat = false ∨ s.dev.syncing (Orig.copy .debug) = false) →
            s.dev.busRead .debug 0 a.toNat n = (d₁, .ok bs) → Gives (.dbgAccRead false wide a) s { s.dev with
            freeCtr := d₁.freeCtr, dbg := { g with err := false, code := 0, data := BitVec.ofNat 64 (ofLE bs) } }) ∧
          (∀ x, (Dev.isXiSyncPa a.toNat = false ∨ s.dev.syncing (Orig.copy .debug) = false) →
            s.dev.busRead .debug 0 a.toNat n = (d₁, .error x) → Gives (.dbgAccRead false wide a) s { s.dev with
            freeCtr := d₁.freeCtr, dbg := { g with err := true, code := BitVec.ofNat 8 x.code, data := 0 } }) ∧
          (s.dev.busWrite .debug a.toNat (toLE n v.toNat) = (d₁, .ok ()) → Gives (.dbgAccWrite false wide a v) s
            (s.dev.settleFreeze { d₁ with dbg := { d₁.dbg with err := false, code := 0, data := BitVec.ofNat 64 g.data.toNat } })))) ∧
      (∀ v : BitVec 64, Does (.dbgAccWrite true true 0x200008 v) s (fun e => e.dbg.blk = BitVec.ofNat 64 (v.toNat % 2 ^ 52))) ∧
      (∀ (t : Fin 96) (k : Fin 4) (x : Thread), x = s.dev.thread t k → s.dev.tillerOn t = true →
        (∀ (f : Fin 3) (r : Fin 32) (v : BitVec 32), f.val ≠ 1 ∨ r.val < 8 →
          (x.halted = true →
            (f.val = 0 → r.val ≠ 0 → Does (.registerWindowWrite t k f r v) s (fun e => e.thread t k = { x with g := x.g.put r v })) ∧
            (f.val = 0 → r.val = 0 → Does (.registerWindowWrite t k f r v) s (fun e => e.threads = s.dev.threads)) ∧
            (f.val = 1 → Does (.registerWindowWrite t k f r v) s (fun e => e.thread t k = { x with f := x.f.put r v })) ∧
            (f.val = 2 → Does (.registerWindowWrite t k f r v) s (fun e =>
              e.thread t k = (s.dev.windowSet t k r v).thread t k ∧ e.tiller t = (s.dev.windowSet t k r v).tiller t))) ∧
          (x.halted = false → Gives (.registerWindowWrite t k f r v) s
            { s.dev with dbg := { g with err := true, code := 0x40 } })) ∧
        (∀ v : BitVec 14,
          (x.st = .halted → x.dbg.busy = false → Does (.tdPcWrite t k v) s (fun e =>
            e.thread t k = { x with pc := v, dbg := { x.dbg with tdPc := v } })) ∧
          (x.halted = false → Gives (.tdPcWrite t k v) s { s.dev with dbg := { g with err := true, code := 0x40 } }))) ∧
      (∀ (t : Fin 96) (v : BitVec 11) (y : Tiller), y = s.dev.tiller t → s.dev.tillerOn t = true →
        ((∀ k < 4, y.ttctl.getLsbD k = true → (s.dev.thread t k).halted = true) → Does (.ttPtrWrite t v) s (fun e =>
          e.tiller t = { y with ttptr := v.setWidth 16 })) ∧
        ((∃ k < 4, y.ttctl.getLsbD k = true ∧ (s.dev.thread t k).halted = false) → Gives (.ttPtrWrite t v) s
          { s.dev with dbg := { g with err := true, code := 0x40 } }))) ∧
    (∀ (ses : Fin 6) (seq : BitVec 32), s.dev.Accepts ses seq 0x9010 0 1 → Does (.debugLock ses seq) s (fun e =>
      e.Answered ses seq .ok ∧ e.obj 0x9010 0 = 1 ∧ e.dbg.force = false ∧ (∀ i, e.frozen i = false) ∧
      ∀ (t : Fin 96) (k : Fin 4), (s.dev.thread t k).st = .halted → (s.dev.thread t k).dbg.busy = false →
        (e.thread t k).st = (if (s.dev.thread t k).dbg.stopReq then .stopped else .ready)))

/-- Run control (R554 to R557, R559 to R561, R565): HALT stops a READY thread at its next instruction, a WAITING one
before its WAIT, waits for one that must end first, and is ignored while a fed instruction has not ended; RESUME
lets it go on, or stops it where a stop came; STEP issues one word and halts again; a breakpoint and a trigger halt;
a fed word is executed without moving the pc, and one that names no instruction is recorded. The model's choices
here: log entries 144, 145 and 149. -/
def Obligations.RunControl : Prop :=
  ∀ (s : State) (t : Fin 96) (k : Fin 4) (x : Thread), x = s.dev.thread t k → s.dev.tillerOn t = true →
    s.dev.debugClosed = false →
    (s.dev.dbgSelected = true →
      (x.dbg.busy = true → Does (.tdHalt t k) s (fun e => e.thread t k = x)) ∧
      (x.dbg.busy = false → x.st = .ready → x.ext = [] → x.towo = false → Does (.tdHalt t k) s (fun e => (e.thread t k).st = .halted ∧
        (e.thread t k).dbg.why = 1 ∧ (e.thread t k).dbg.tdPc = x.pc ∧ (e.thread t k).pc = x.pc ∧
        (e.thread t k).g = x.g ∧ e.mem = s.dev.mem ∧
        e.dbg.trig = s.dev.dbg.trig + (if Dev.tillerBit s.dev.dbg.dxOut0 s.dev.dbg.dxOut1 t then 1 else 0))) ∧
      (x.dbg.busy = false → x.st = .waiting → Does (.tdHalt t k) s (fun e => (e.thread t k).st = .halted ∧ (e.thread t k).pc = x.ipc)) ∧
      (x.dbg.busy = false → x.st = .parked → x.abandons = false → Does (.tdHalt t k) s (fun e =>
        e.thread t k = { x with dbg := { x.dbg with haltReq := 1 } })) ∧
      (x.st = .halted →
        (x.dbg.stopReq = false → Does (.tdResume t k) s (fun e => e.thread t k = { x with
          st := .ready, dbg := { x.dbg with why := 0, haltReq := 0, passBp := true } })) ∧
        (x.dbg.stopReq = true → Does (.tdResume t k) s (fun e => (e.thread t k).st = .stopped))) ∧
      (∀ a b : BitVec 5, decodeSeq ((s.dev.wordAt t k x.pc).setWidth 14) = some (.mov a b) →
        Dev.parityOk (s.dev.wordAt t k x.pc) = true → x.st = .halted → x.dbg.busy = false → x.ext = [] → x.towo = false →
        (s.dev.tiller t).smask = true ∨ s.dev.deliverable t k = none →
        Does (.tdStep t k) s (fun e => (e.thread t k).st = .halted ∧ (e.thread t k).dbg.why = 2 ∧
          (e.thread t k).pc = x.pc + 1 ∧ (e.thread t k).g = (x.wr a.toNat (x.rd b.toNat)).g ∧
          (e.thread t k).f = (x.wr a.toNat (x.rd b.toNat)).f)) ∧
      (∀ w : BitVec 14,
        (x.st = .halted → decodeSeq w = none → Does (.tdFeed t k w) s (fun e => (e.thread t k).dbg.exc = true ∧
          (e.thread t k).dbg.vector = 0 ∧ (e.thread t k).st = .halted ∧ (e.thread t k).pc = x.pc)) ∧
        (∀ a b : BitVec 5, x.st = .halted → x.dbg.fext = [] → decodeSeq w = some (.mov a b) → Does (.tdFeed t k w) s (fun e =>
          (e.thread t k).st = .halted ∧ (e.thread t k).dbg.busy = false ∧ (e.thread t k).dbg.exc = false ∧
          (e.thread t k).pc = x.pc ∧ (e.thread t k).g = (x.wr a.toNat (x.rd b.toNat)).g ∧
          (e.thread t k).f = (x.wr a.toNat (x.rd b.toNat)).f)) ∧
        (∀ i, x.st = .halted → x.dbg.fext.length < 3 → decodeSeq w = some (.ext i) → Does (.tdFeed t k w) s (fun e =>
          (e.thread t k).dbg.fext = x.dbg.fext ++ [i] ∧ (e.thread t k).st = .halted)) ∧
        (x.st ≠ .halted → Gives (.tdFeed t k w) s
          { s.dev with dbg := { s.dev.dbg with err := true, code := 0x40 } }))) ∧
    (x.dbg.busy = false → x.st = .ready → s.dev.bpHit t k x.pc = true → x.dbg.passBp = false → x.ext = [] → x.towo = false →
      Does (.breakpointHit t k) s (fun e => (e.thread t k).st = .halted ∧ (e.thread t k).dbg.why = 3 ∧
        (e.thread t k).pc = x.pc ∧ (e.thread t k).g = x.g)) ∧
    (s.dev.dbg.trig ≠ 0 → Dev.tillerBit s.dev.dbg.dxIn0 s.dev.dbg.dxIn1 t = true →
      x.dbg.busy = false → x.st = .ready → x.ext = [] → x.towo = false →
      Does .crossTrigger s (fun e => (e.thread t k).st = .halted ∧ (e.thread t k).dbg.why = 4 ∧ e.dbg.trig = s.dev.dbg.trig - 1)) ∧
    (s.dev.dbg.trig = 0 → Gives .crossTrigger s s.dev)
end

