-- ==== Sys2Proof/Laws/SMap.lean ====
section
/-! SUPPORT. Sparse maps: reading after writing. -/

namespace Sys2Proof.SMap

variable {α : Type}

/-- A read at the key written gives the value written. -/
@[simp] theorem get_put_self (z : α) (m : SMap α) (k : Nat) (v : α) : get z (put m k v) k = v := by
  induction m with
  | nil => simp [put, get]
  | cons p m ih =>
    obtain ⟨j, w⟩ := p
    unfold put
    split
    · simp [get]
    · split
      · simp [get]
      · simp [get, *]

/-- A write leaves every other key alone. -/
theorem get_put_of_ne (z : α) (m : SMap α) {i k : Nat} (v : α) (h : i ≠ k) : get z (put m k v) i = get z m i := by
  induction m with
  | nil => simp only [put, get, h, if_false]; split <;> rfl
  | cons p m ih =>
    obtain ⟨j, w⟩ := p
    unfold put
    split
    · subst_vars; simp [get, h]
    · split
      · simp only [get, h, if_false]
        by_cases hk : i < k
        · have : i ≠ j := by omega
          have : i < j := by omega
          simp [*]
        · simp [hk]
      · simp only [get, ih]

theorem get_put (z : α) (m : SMap α) (i k : Nat) (v : α) : get z (put m k v) i = if i = k then v else get z m i := by
  split
  · subst_vars; simp
  · exact get_put_of_ne z m v ‹_›

/-- Keys rise strictly. -/
def Sorted (m : SMap α) : Prop := m.Pairwise (fun p q => p.1 < q.1)

theorem mem_put (m : SMap α) (k : Nat) (v : α) (p : Nat × α) (h : p ∈ put m k v) : p = (k, v) ∨ p ∈ m := by
  induction m with
  | nil => simp [put] at h; exact .inl h
  | cons q m ih =>
    obtain ⟨j, w⟩ := q
    unfold put at h
    split at h
    · rcases List.mem_cons.1 h with rfl | h <;> simp [*]
    · split at h
      · rcases List.mem_cons.1 h with rfl | h <;> simp_all
      · rcases List.mem_cons.1 h with rfl | h
        · simp
        · rcases ih h with h | h <;> simp [h]

/-- A write keeps the canonical order. -/
theorem sorted_put (m : SMap α) (k : Nat) (v : α) (h : Sorted m) : Sorted (put m k v) := by
  induction m with
  | nil => simp [put, Sorted]
  | cons p m ih =>
    obtain ⟨j, w⟩ := p
    have h' := List.pairwise_cons.1 h
    unfold put
    split
    · subst_vars; exact List.pairwise_cons.2 ⟨h'.1, h'.2⟩
    · split
      · refine List.pairwise_cons.2 ⟨fun q hq => ?_, h⟩
        rcases List.mem_cons.1 hq with rfl | hq
        · simpa using ‹k < j›
        · have := h'.1 q hq; simp only at this ⊢; omega
      · refine List.pairwise_cons.2 ⟨fun q hq => ?_, ih h'.2⟩
        rcases mem_put m k v q hq with rfl | hq
        · simp only; omega
        · exact h'.1 q hq

theorem sorted_filter (m : SMap α) (f : Nat × α → Bool) (h : Sorted m) : Sorted (m.filter f) :=
  List.Pairwise.filter f h

end Sys2Proof.SMap
end

