-- ==== Sys2Proof/Laws/State.lean ====
section
/-! SUPPORT. What each update of the device leaves in each field, and reading a unit after writing one. -/

namespace Sys2Proof.Machine.Dev

@[simp] theorem setThread_fc (d : Dev) (t k : Nat) (x : Thread) : (d.setThread t k x).fc = d.fc := rfl
@[simp] theorem setThread_freeCtr (d : Dev) (t k : Nat) (x : Thread) : (d.setThread t k x).freeCtr = d.freeCtr := rfl
@[simp] theorem setThread_mem (d : Dev) (t k : Nat) (x : Thread) : (d.setThread t k x).mem = d.mem := rfl
@[simp] theorem setThread_threads (d : Dev) (t k : Nat) (x : Thread) : (d.setThread t k x).threads = d.threads.put (4 * t + k) x := rfl
@[simp] theorem setThread_tillers (d : Dev) (t k : Nat) (x : Thread) : (d.setThread t k x).tillers = d.tillers := rfl
@[simp] theorem setThread_seeds (d : Dev) (t k : Nat) (x : Thread) : (d.setThread t k x).seeds = d.seeds := rfl
@[simp] theorem setThread_evc (d : Dev) (t k : Nat) (x : Thread) : (d.setThread t k x).evc = d.evc := rfl
@[simp] theorem setThread_atoms (d : Dev) (t k : Nat) (x : Thread) : (d.setThread t k x).atoms = d.atoms := rfl
@[simp] theorem setThread_stlb (d : Dev) (t k : Nat) (x : Thread) : (d.setThread t k x).stlb = d.stlb := rfl
@[simp] theorem setThread_walkQ (d : Dev) (t k : Nat) (x : Thread) : (d.setThread t k x).walkQ = d.walkQ := rfl
@[simp] theorem setThread_xiLow (d : Dev) (t k : Nat) (x : Thread) : (d.setThread t k x).xiLow = d.xiLow := rfl
@[simp] theorem setThread_fabPri (d : Dev) (t k : Nat) (x : Thread) : (d.setThread t k x).fabPri = d.fabPri := rfl
@[simp] theorem setThread_scrub (d : Dev) (t k : Nat) (x : Thread) : (d.setThread t k x).scrub = d.scrub := rfl
@[simp] theorem setThread_alm (d : Dev) (t k : Nat) (x : Thread) : (d.setThread t k x).alm = d.alm := rfl
@[simp] theorem setThread_doms (d : Dev) (t k : Nat) (x : Thread) : (d.setThread t k x).doms = d.doms := rfl
@[simp] theorem setThread_hl (d : Dev) (t k : Nat) (x : Thread) : (d.setThread t k x).hl = d.hl := rfl
@[simp] theorem setThread_engines (d : Dev) (t k : Nat) (x : Thread) : (d.setThread t k x).engines = d.engines := rfl
@[simp] theorem setThread_drills (d : Dev) (t k : Nat) (x : Thread) : (d.setThread t k x).drills = d.drills := rfl
@[simp] theorem setThread_ports (d : Dev) (t k : Nat) (x : Thread) : (d.setThread t k x).ports = d.ports := rfl
@[simp] theorem setThread_furrows (d : Dev) (t k : Nat) (x : Thread) : (d.setThread t k x).furrows = d.furrows := rfl
@[simp] theorem setThread_pengs (d : Dev) (t k : Nat) (x : Thread) : (d.setThread t k x).pengs = d.pengs := rfl
@[simp] theorem setThread_partners (d : Dev) (t k : Nat) (x : Thread) : (d.setThread t k x).partners = d.partners := rfl
@[simp] theorem setThread_bonds (d : Dev) (t k : Nat) (x : Thread) : (d.setThread t k x).bonds = d.bonds := rfl
@[simp] theorem setThread_cvus (d : Dev) (t k : Nat) (x : Thread) : (d.setThread t k x).cvus = d.cvus := rfl
@[simp] theorem setThread_dbg (d : Dev) (t k : Nat) (x : Thread) : (d.setThread t k x).dbg = d.dbg := rfl
@[simp] theorem setThread_glast (d : Dev) (t k : Nat) (x : Thread) : (d.setThread t k x).glast = d.glast := rfl
@[simp] theorem setThread_dict (d : Dev) (t k : Nat) (x : Thread) : (d.setThread t k x).dict = d.dict := rfl
@[simp] theorem setThread_pcie (d : Dev) (t k : Nat) (x : Thread) : (d.setThread t k x).pcie = d.pcie := rfl
@[simp] theorem setThread_objs (d : Dev) (t k : Nat) (x : Thread) : (d.setThread t k x).objs = d.objs := rfl
@[simp] theorem setThread_octs (d : Dev) (t k : Nat) (x : Thread) : (d.setThread t k x).octs = d.octs := rfl
@[simp] theorem setThread_out (d : Dev) (t k : Nat) (x : Thread) : (d.setThread t k x).out = d.out := rfl

@[simp] theorem modThread_fc (d : Dev) (t k : Nat) (f : Thread → Thread) : (d.modThread t k f).fc = d.fc := rfl
@[simp] theorem modThread_freeCtr (d : Dev) (t k : Nat) (f : Thread → Thread) : (d.modThread t k f).freeCtr = d.freeCtr := rfl
@[simp] theorem modThread_mem (d : Dev) (t k : Nat) (f : Thread → Thread) : (d.modThread t k f).mem = d.mem := rfl
@[simp] theorem modThread_threads (d : Dev) (t k : Nat) (f : Thread → Thread) : (d.modThread t k f).threads = d.threads.put (4 * t + k) (f (d.thread t k)) := rfl
@[simp] theorem modThread_tillers (d : Dev) (t k : Nat) (f : Thread → Thread) : (d.modThread t k f).tillers = d.tillers := rfl
@[simp] theorem modThread_seeds (d : Dev) (t k : Nat) (f : Thread → Thread) : (d.modThread t k f).seeds = d.seeds := rfl
@[simp] theorem modThread_evc (d : Dev) (t k : Nat) (f : Thread → Thread) : (d.modThread t k f).evc = d.evc := rfl
@[simp] theorem modThread_atoms (d : Dev) (t k : Nat) (f : Thread → Thread) : (d.modThread t k f).atoms = d.atoms := rfl
@[simp] theorem modThread_stlb (d : Dev) (t k : Nat) (f : Thread → Thread) : (d.modThread t k f).stlb = d.stlb := rfl
@[simp] theorem modThread_walkQ (d : Dev) (t k : Nat) (f : Thread → Thread) : (d.modThread t k f).walkQ = d.walkQ := rfl
@[simp] theorem modThread_xiLow (d : Dev) (t k : Nat) (f : Thread → Thread) : (d.modThread t k f).xiLow = d.xiLow := rfl
@[simp] theorem modThread_fabPri (d : Dev) (t k : Nat) (f : Thread → Thread) : (d.modThread t k f).fabPri = d.fabPri := rfl
@[simp] theorem modThread_scrub (d : Dev) (t k : Nat) (f : Thread → Thread) : (d.modThread t k f).scrub = d.scrub := rfl
@[simp] theorem modThread_alm (d : Dev) (t k : Nat) (f : Thread → Thread) : (d.modThread t k f).alm = d.alm := rfl
@[simp] theorem modThread_doms (d : Dev) (t k : Nat) (f : Thread → Thread) : (d.modThread t k f).doms = d.doms := rfl
@[simp] theorem modThread_hl (d : Dev) (t k : Nat) (f : Thread → Thread) : (d.modThread t k f).hl = d.hl := rfl
@[simp] theorem modThread_engines (d : Dev) (t k : Nat) (f : Thread → Thread) : (d.modThread t k f).engines = d.engines := rfl
@[simp] theorem modThread_drills (d : Dev) (t k : Nat) (f : Thread → Thread) : (d.modThread t k f).drills = d.drills := rfl
@[simp] theorem modThread_ports (d : Dev) (t k : Nat) (f : Thread → Thread) : (d.modThread t k f).ports = d.ports := rfl
@[simp] theorem modThread_furrows (d : Dev) (t k : Nat) (f : Thread → Thread) : (d.modThread t k f).furrows = d.furrows := rfl
@[simp] theorem modThread_pengs (d : Dev) (t k : Nat) (f : Thread → Thread) : (d.modThread t k f).pengs = d.pengs := rfl
@[simp] theorem modThread_partners (d : Dev) (t k : Nat) (f : Thread → Thread) : (d.modThread t k f).partners = d.partners := rfl
@[simp] theorem modThread_bonds (d : Dev) (t k : Nat) (f : Thread → Thread) : (d.modThread t k f).bonds = d.bonds := rfl
@[simp] theorem modThread_cvus (d : Dev) (t k : Nat) (f : Thread → Thread) : (d.modThread t k f).cvus = d.cvus := rfl
@[simp] theorem modThread_dbg (d : Dev) (t k : Nat) (f : Thread → Thread) : (d.modThread t k f).dbg = d.dbg := rfl
@[simp] theorem modThread_glast (d : Dev) (t k : Nat) (f : Thread → Thread) : (d.modThread t k f).glast = d.glast := rfl
@[simp] theorem modThread_dict (d : Dev) (t k : Nat) (f : Thread → Thread) : (d.modThread t k f).dict = d.dict := rfl
@[simp] theorem modThread_pcie (d : Dev) (t k : Nat) (f : Thread → Thread) : (d.modThread t k f).pcie = d.pcie := rfl
@[simp] theorem modThread_objs (d : Dev) (t k : Nat) (f : Thread → Thread) : (d.modThread t k f).objs = d.objs := rfl
@[simp] theorem modThread_octs (d : Dev) (t k : Nat) (f : Thread → Thread) : (d.modThread t k f).octs = d.octs := rfl
@[simp] theorem modThread_out (d : Dev) (t k : Nat) (f : Thread → Thread) : (d.modThread t k f).out = d.out := rfl

@[simp] theorem setTiller_fc (d : Dev) (t : Nat) (x : Tiller) : (d.setTiller t x).fc = d.fc := rfl
@[simp] theorem setTiller_freeCtr (d : Dev) (t : Nat) (x : Tiller) : (d.setTiller t x).freeCtr = d.freeCtr := rfl
@[simp] theorem setTiller_mem (d : Dev) (t : Nat) (x : Tiller) : (d.setTiller t x).mem = d.mem := rfl
@[simp] theorem setTiller_threads (d : Dev) (t : Nat) (x : Tiller) : (d.setTiller t x).threads = d.threads := rfl
@[simp] theorem setTiller_tillers (d : Dev) (t : Nat) (x : Tiller) : (d.setTiller t x).tillers = d.tillers.put t x := rfl
@[simp] theorem setTiller_seeds (d : Dev) (t : Nat) (x : Tiller) : (d.setTiller t x).seeds = d.seeds := rfl
@[simp] theorem setTiller_evc (d : Dev) (t : Nat) (x : Tiller) : (d.setTiller t x).evc = d.evc := rfl
@[simp] theorem setTiller_atoms (d : Dev) (t : Nat) (x : Tiller) : (d.setTiller t x).atoms = d.atoms := rfl
@[simp] theorem setTiller_stlb (d : Dev) (t : Nat) (x : Tiller) : (d.setTiller t x).stlb = d.stlb := rfl
@[simp] theorem setTiller_walkQ (d : Dev) (t : Nat) (x : Tiller) : (d.setTiller t x).walkQ = d.walkQ := rfl
@[simp] theorem setTiller_xiLow (d : Dev) (t : Nat) (x : Tiller) : (d.setTiller t x).xiLow = d.xiLow := rfl
@[simp] theorem setTiller_fabPri (d : Dev) (t : Nat) (x : Tiller) : (d.setTiller t x).fabPri = d.fabPri := rfl
@[simp] theorem setTiller_scrub (d : Dev) (t : Nat) (x : Tiller) : (d.setTiller t x).scrub = d.scrub := rfl
@[simp] theorem setTiller_alm (d : Dev) (t : Nat) (x : Tiller) : (d.setTiller t x).alm = d.alm := rfl
@[simp] theorem setTiller_doms (d : Dev) (t : Nat) (x : Tiller) : (d.setTiller t x).doms = d.doms := rfl
@[simp] theorem setTiller_hl (d : Dev) (t : Nat) (x : Tiller) : (d.setTiller t x).hl = d.hl := rfl
@[simp] theorem setTiller_engines (d : Dev) (t : Nat) (x : Tiller) : (d.setTiller t x).engines = d.engines := rfl
@[simp] theorem setTiller_drills (d : Dev) (t : Nat) (x : Tiller) : (d.setTiller t x).drills = d.drills := rfl
@[simp] theorem setTiller_ports (d : Dev) (t : Nat) (x : Tiller) : (d.setTiller t x).ports = d.ports := rfl
@[simp] theorem setTiller_furrows (d : Dev) (t : Nat) (x : Tiller) : (d.setTiller t x).furrows = d.furrows := rfl
@[simp] theorem setTiller_pengs (d : Dev) (t : Nat) (x : Tiller) : (d.setTiller t x).pengs = d.pengs := rfl
@[simp] theorem setTiller_partners (d : Dev) (t : Nat) (x : Tiller) : (d.setTiller t x).partners = d.partners := rfl
@[simp] theorem setTiller_bonds (d : Dev) (t : Nat) (x : Tiller) : (d.setTiller t x).bonds = d.bonds := rfl
@[simp] theorem setTiller_cvus (d : Dev) (t : Nat) (x : Tiller) : (d.setTiller t x).cvus = d.cvus := rfl
@[simp] theorem setTiller_dbg (d : Dev) (t : Nat) (x : Tiller) : (d.setTiller t x).dbg = d.dbg := rfl
@[simp] theorem setTiller_glast (d : Dev) (t : Nat) (x : Tiller) : (d.setTiller t x).glast = d.glast := rfl
@[simp] theorem setTiller_dict (d : Dev) (t : Nat) (x : Tiller) : (d.setTiller t x).dict = d.dict := rfl
@[simp] theorem setTiller_pcie (d : Dev) (t : Nat) (x : Tiller) : (d.setTiller t x).pcie = d.pcie := rfl
@[simp] theorem setTiller_objs (d : Dev) (t : Nat) (x : Tiller) : (d.setTiller t x).objs = d.objs := rfl
@[simp] theorem setTiller_octs (d : Dev) (t : Nat) (x : Tiller) : (d.setTiller t x).octs = d.octs := rfl
@[simp] theorem setTiller_out (d : Dev) (t : Nat) (x : Tiller) : (d.setTiller t x).out = d.out := rfl

@[simp] theorem modTiller_fc (d : Dev) (t : Nat) (f : Tiller → Tiller) : (d.modTiller t f).fc = d.fc := rfl
@[simp] theorem modTiller_freeCtr (d : Dev) (t : Nat) (f : Tiller → Tiller) : (d.modTiller t f).freeCtr = d.freeCtr := rfl
@[simp] theorem modTiller_mem (d : Dev) (t : Nat) (f : Tiller → Tiller) : (d.modTiller t f).mem = d.mem := rfl
@[simp] theorem modTiller_threads (d : Dev) (t : Nat) (f : Tiller → Tiller) : (d.modTiller t f).threads = d.threads := rfl
@[simp] theorem modTiller_tillers (d : Dev) (t : Nat) (f : Tiller → Tiller) : (d.modTiller t f).tillers = d.tillers.put t (f (d.tiller t)) := rfl
@[simp] theorem modTiller_seeds (d : Dev) (t : Nat) (f : Tiller → Tiller) : (d.modTiller t f).seeds = d.seeds := rfl
@[simp] theorem modTiller_evc (d : Dev) (t : Nat) (f : Tiller → Tiller) : (d.modTiller t f).evc = d.evc := rfl
@[simp] theorem modTiller_atoms (d : Dev) (t : Nat) (f : Tiller → Tiller) : (d.modTiller t f).atoms = d.atoms := rfl
@[simp] theorem modTiller_stlb (d : Dev) (t : Nat) (f : Tiller → Tiller) : (d.modTiller t f).stlb = d.stlb := rfl
@[simp] theorem modTiller_walkQ (d : Dev) (t : Nat) (f : Tiller → Tiller) : (d.modTiller t f).walkQ = d.walkQ := rfl
@[simp] theorem modTiller_xiLow (d : Dev) (t : Nat) (f : Tiller → Tiller) : (d.modTiller t f).xiLow = d.xiLow := rfl
@[simp] theorem modTiller_fabPri (d : Dev) (t : Nat) (f : Tiller → Tiller) : (d.modTiller t f).fabPri = d.fabPri := rfl
@[simp] theorem modTiller_scrub (d : Dev) (t : Nat) (f : Tiller → Tiller) : (d.modTiller t f).scrub = d.scrub := rfl
@[simp] theorem modTiller_alm (d : Dev) (t : Nat) (f : Tiller → Tiller) : (d.modTiller t f).alm = d.alm := rfl
@[simp] theorem modTiller_doms (d : Dev) (t : Nat) (f : Tiller → Tiller) : (d.modTiller t f).doms = d.doms := rfl
@[simp] theorem modTiller_hl (d : Dev) (t : Nat) (f : Tiller → Tiller) : (d.modTiller t f).hl = d.hl := rfl
@[simp] theorem modTiller_engines (d : Dev) (t : Nat) (f : Tiller → Tiller) : (d.modTiller t f).engines = d.engines := rfl
@[simp] theorem modTiller_drills (d : Dev) (t : Nat) (f : Tiller → Tiller) : (d.modTiller t f).drills = d.drills := rfl
@[simp] theorem modTiller_ports (d : Dev) (t : Nat) (f : Tiller → Tiller) : (d.modTiller t f).ports = d.ports := rfl
@[simp] theorem modTiller_furrows (d : Dev) (t : Nat) (f : Tiller → Tiller) : (d.modTiller t f).furrows = d.furrows := rfl
@[simp] theorem modTiller_pengs (d : Dev) (t : Nat) (f : Tiller → Tiller) : (d.modTiller t f).pengs = d.pengs := rfl
@[simp] theorem modTiller_partners (d : Dev) (t : Nat) (f : Tiller → Tiller) : (d.modTiller t f).partners = d.partners := rfl
@[simp] theorem modTiller_bonds (d : Dev) (t : Nat) (f : Tiller → Tiller) : (d.modTiller t f).bonds = d.bonds := rfl
@[simp] theorem modTiller_cvus (d : Dev) (t : Nat) (f : Tiller → Tiller) : (d.modTiller t f).cvus = d.cvus := rfl
@[simp] theorem modTiller_dbg (d : Dev) (t : Nat) (f : Tiller → Tiller) : (d.modTiller t f).dbg = d.dbg := rfl
@[simp] theorem modTiller_glast (d : Dev) (t : Nat) (f : Tiller → Tiller) : (d.modTiller t f).glast = d.glast := rfl
@[simp] theorem modTiller_dict (d : Dev) (t : Nat) (f : Tiller → Tiller) : (d.modTiller t f).dict = d.dict := rfl
@[simp] theorem modTiller_pcie (d : Dev) (t : Nat) (f : Tiller → Tiller) : (d.modTiller t f).pcie = d.pcie := rfl
@[simp] theorem modTiller_objs (d : Dev) (t : Nat) (f : Tiller → Tiller) : (d.modTiller t f).objs = d.objs := rfl
@[simp] theorem modTiller_octs (d : Dev) (t : Nat) (f : Tiller → Tiller) : (d.modTiller t f).octs = d.octs := rfl
@[simp] theorem modTiller_out (d : Dev) (t : Nat) (f : Tiller → Tiller) : (d.modTiller t f).out = d.out := rfl

@[simp] theorem setDom_fc (d : Dev) (n : Nat) (x : Domain) : (d.setDom n x).fc = d.fc := rfl
@[simp] theorem setDom_freeCtr (d : Dev) (n : Nat) (x : Domain) : (d.setDom n x).freeCtr = d.freeCtr := rfl
@[simp] theorem setDom_mem (d : Dev) (n : Nat) (x : Domain) : (d.setDom n x).mem = d.mem := rfl
@[simp] theorem setDom_threads (d : Dev) (n : Nat) (x : Domain) : (d.setDom n x).threads = d.threads := rfl
@[simp] theorem setDom_tillers (d : Dev) (n : Nat) (x : Domain) : (d.setDom n x).tillers = d.tillers := rfl
@[simp] theorem setDom_seeds (d : Dev) (n : Nat) (x : Domain) : (d.setDom n x).seeds = d.seeds := rfl
@[simp] theorem setDom_evc (d : Dev) (n : Nat) (x : Domain) : (d.setDom n x).evc = d.evc := rfl
@[simp] theorem setDom_atoms (d : Dev) (n : Nat) (x : Domain) : (d.setDom n x).atoms = d.atoms := rfl
@[simp] theorem setDom_stlb (d : Dev) (n : Nat) (x : Domain) : (d.setDom n x).stlb = d.stlb := rfl
@[simp] theorem setDom_walkQ (d : Dev) (n : Nat) (x : Domain) : (d.setDom n x).walkQ = d.walkQ := rfl
@[simp] theorem setDom_xiLow (d : Dev) (n : Nat) (x : Domain) : (d.setDom n x).xiLow = d.xiLow := rfl
@[simp] theorem setDom_fabPri (d : Dev) (n : Nat) (x : Domain) : (d.setDom n x).fabPri = d.fabPri := rfl
@[simp] theorem setDom_scrub (d : Dev) (n : Nat) (x : Domain) : (d.setDom n x).scrub = d.scrub := rfl
@[simp] theorem setDom_alm (d : Dev) (n : Nat) (x : Domain) : (d.setDom n x).alm = d.alm := rfl
@[simp] theorem setDom_doms (d : Dev) (n : Nat) (x : Domain) : (d.setDom n x).doms = d.doms.put n x := rfl
@[simp] theorem setDom_hl (d : Dev) (n : Nat) (x : Domain) : (d.setDom n x).hl = d.hl := rfl
@[simp] theorem setDom_engines (d : Dev) (n : Nat) (x : Domain) : (d.setDom n x).engines = d.engines := rfl
@[simp] theorem setDom_drills (d : Dev) (n : Nat) (x : Domain) : (d.setDom n x).drills = d.drills := rfl
@[simp] theorem setDom_ports (d : Dev) (n : Nat) (x : Domain) : (d.setDom n x).ports = d.ports := rfl
@[simp] theorem setDom_furrows (d : Dev) (n : Nat) (x : Domain) : (d.setDom n x).furrows = d.furrows := rfl
@[simp] theorem setDom_pengs (d : Dev) (n : Nat) (x : Domain) : (d.setDom n x).pengs = d.pengs := rfl
@[simp] theorem setDom_partners (d : Dev) (n : Nat) (x : Domain) : (d.setDom n x).partners = d.partners := rfl
@[simp] theorem setDom_bonds (d : Dev) (n : Nat) (x : Domain) : (d.setDom n x).bonds = d.bonds := rfl
@[simp] theorem setDom_cvus (d : Dev) (n : Nat) (x : Domain) : (d.setDom n x).cvus = d.cvus := rfl
@[simp] theorem setDom_dbg (d : Dev) (n : Nat) (x : Domain) : (d.setDom n x).dbg = d.dbg := rfl
@[simp] theorem setDom_glast (d : Dev) (n : Nat) (x : Domain) : (d.setDom n x).glast = d.glast := rfl
@[simp] theorem setDom_dict (d : Dev) (n : Nat) (x : Domain) : (d.setDom n x).dict = d.dict := rfl
@[simp] theorem setDom_pcie (d : Dev) (n : Nat) (x : Domain) : (d.setDom n x).pcie = d.pcie := rfl
@[simp] theorem setDom_objs (d : Dev) (n : Nat) (x : Domain) : (d.setDom n x).objs = d.objs := rfl
@[simp] theorem setDom_octs (d : Dev) (n : Nat) (x : Domain) : (d.setDom n x).octs = d.octs := rfl
@[simp] theorem setDom_out (d : Dev) (n : Nat) (x : Domain) : (d.setDom n x).out = d.out := rfl

@[simp] theorem modDom_fc (d : Dev) (n : Nat) (f : Domain → Domain) : (d.modDom n f).fc = d.fc := rfl
@[simp] theorem modDom_freeCtr (d : Dev) (n : Nat) (f : Domain → Domain) : (d.modDom n f).freeCtr = d.freeCtr := rfl
@[simp] theorem modDom_mem (d : Dev) (n : Nat) (f : Domain → Domain) : (d.modDom n f).mem = d.mem := rfl
@[simp] theorem modDom_threads (d : Dev) (n : Nat) (f : Domain → Domain) : (d.modDom n f).threads = d.threads := rfl
@[simp] theorem modDom_tillers (d : Dev) (n : Nat) (f : Domain → Domain) : (d.modDom n f).tillers = d.tillers := rfl
@[simp] theorem modDom_seeds (d : Dev) (n : Nat) (f : Domain → Domain) : (d.modDom n f).seeds = d.seeds := rfl
@[simp] theorem modDom_evc (d : Dev) (n : Nat) (f : Domain → Domain) : (d.modDom n f).evc = d.evc := rfl
@[simp] theorem modDom_atoms (d : Dev) (n : Nat) (f : Domain → Domain) : (d.modDom n f).atoms = d.atoms := rfl
@[simp] theorem modDom_stlb (d : Dev) (n : Nat) (f : Domain → Domain) : (d.modDom n f).stlb = d.stlb := rfl
@[simp] theorem modDom_walkQ (d : Dev) (n : Nat) (f : Domain → Domain) : (d.modDom n f).walkQ = d.walkQ := rfl
@[simp] theorem modDom_xiLow (d : Dev) (n : Nat) (f : Domain → Domain) : (d.modDom n f).xiLow = d.xiLow := rfl
@[simp] theorem modDom_fabPri (d : Dev) (n : Nat) (f : Domain → Domain) : (d.modDom n f).fabPri = d.fabPri := rfl
@[simp] theorem modDom_scrub (d : Dev) (n : Nat) (f : Domain → Domain) : (d.modDom n f).scrub = d.scrub := rfl
@[simp] theorem modDom_alm (d : Dev) (n : Nat) (f : Domain → Domain) : (d.modDom n f).alm = d.alm := rfl
@[simp] theorem modDom_doms (d : Dev) (n : Nat) (f : Domain → Domain) : (d.modDom n f).doms = d.doms.put n (f (d.dom n)) := rfl
@[simp] theorem modDom_hl (d : Dev) (n : Nat) (f : Domain → Domain) : (d.modDom n f).hl = d.hl := rfl
@[simp] theorem modDom_engines (d : Dev) (n : Nat) (f : Domain → Domain) : (d.modDom n f).engines = d.engines := rfl
@[simp] theorem modDom_drills (d : Dev) (n : Nat) (f : Domain → Domain) : (d.modDom n f).drills = d.drills := rfl
@[simp] theorem modDom_ports (d : Dev) (n : Nat) (f : Domain → Domain) : (d.modDom n f).ports = d.ports := rfl
@[simp] theorem modDom_furrows (d : Dev) (n : Nat) (f : Domain → Domain) : (d.modDom n f).furrows = d.furrows := rfl
@[simp] theorem modDom_pengs (d : Dev) (n : Nat) (f : Domain → Domain) : (d.modDom n f).pengs = d.pengs := rfl
@[simp] theorem modDom_partners (d : Dev) (n : Nat) (f : Domain → Domain) : (d.modDom n f).partners = d.partners := rfl
@[simp] theorem modDom_bonds (d : Dev) (n : Nat) (f : Domain → Domain) : (d.modDom n f).bonds = d.bonds := rfl
@[simp] theorem modDom_cvus (d : Dev) (n : Nat) (f : Domain → Domain) : (d.modDom n f).cvus = d.cvus := rfl
@[simp] theorem modDom_dbg (d : Dev) (n : Nat) (f : Domain → Domain) : (d.modDom n f).dbg = d.dbg := rfl
@[simp] theorem modDom_glast (d : Dev) (n : Nat) (f : Domain → Domain) : (d.modDom n f).glast = d.glast := rfl
@[simp] theorem modDom_dict (d : Dev) (n : Nat) (f : Domain → Domain) : (d.modDom n f).dict = d.dict := rfl
@[simp] theorem modDom_pcie (d : Dev) (n : Nat) (f : Domain → Domain) : (d.modDom n f).pcie = d.pcie := rfl
@[simp] theorem modDom_objs (d : Dev) (n : Nat) (f : Domain → Domain) : (d.modDom n f).objs = d.objs := rfl
@[simp] theorem modDom_octs (d : Dev) (n : Nat) (f : Domain → Domain) : (d.modDom n f).octs = d.octs := rfl
@[simp] theorem modDom_out (d : Dev) (n : Nat) (f : Domain → Domain) : (d.modDom n f).out = d.out := rfl

@[simp] theorem setObj_fc (d : Dev) (i n v : Nat) : (d.setObj i n v).fc = d.fc := rfl
@[simp] theorem setObj_freeCtr (d : Dev) (i n v : Nat) : (d.setObj i n v).freeCtr = d.freeCtr := rfl
@[simp] theorem setObj_mem (d : Dev) (i n v : Nat) : (d.setObj i n v).mem = d.mem := rfl
@[simp] theorem setObj_threads (d : Dev) (i n v : Nat) : (d.setObj i n v).threads = d.threads := rfl
@[simp] theorem setObj_tillers (d : Dev) (i n v : Nat) : (d.setObj i n v).tillers = d.tillers := rfl
@[simp] theorem setObj_seeds (d : Dev) (i n v : Nat) : (d.setObj i n v).seeds = d.seeds := rfl
@[simp] theorem setObj_evc (d : Dev) (i n v : Nat) : (d.setObj i n v).evc = d.evc := rfl
@[simp] theorem setObj_atoms (d : Dev) (i n v : Nat) : (d.setObj i n v).atoms = d.atoms := rfl
@[simp] theorem setObj_stlb (d : Dev) (i n v : Nat) : (d.setObj i n v).stlb = d.stlb := rfl
@[simp] theorem setObj_walkQ (d : Dev) (i n v : Nat) : (d.setObj i n v).walkQ = d.walkQ := rfl
@[simp] theorem setObj_xiLow (d : Dev) (i n v : Nat) : (d.setObj i n v).xiLow = d.xiLow := rfl
@[simp] theorem setObj_fabPri (d : Dev) (i n v : Nat) : (d.setObj i n v).fabPri = d.fabPri := rfl
@[simp] theorem setObj_scrub (d : Dev) (i n v : Nat) : (d.setObj i n v).scrub = d.scrub := rfl
@[simp] theorem setObj_alm (d : Dev) (i n v : Nat) : (d.setObj i n v).alm = d.alm := rfl
@[simp] theorem setObj_doms (d : Dev) (i n v : Nat) : (d.setObj i n v).doms = d.doms := rfl
@[simp] theorem setObj_hl (d : Dev) (i n v : Nat) : (d.setObj i n v).hl = d.hl := rfl
@[simp] theorem setObj_engines (d : Dev) (i n v : Nat) : (d.setObj i n v).engines = d.engines := rfl
@[simp] theorem setObj_drills (d : Dev) (i n v : Nat) : (d.setObj i n v).drills = d.drills := rfl
@[simp] theorem setObj_ports (d : Dev) (i n v : Nat) : (d.setObj i n v).ports = d.ports := rfl
@[simp] theorem setObj_furrows (d : Dev) (i n v : Nat) : (d.setObj i n v).furrows = d.furrows := rfl
@[simp] theorem setObj_pengs (d : Dev) (i n v : Nat) : (d.setObj i n v).pengs = d.pengs := rfl
@[simp] theorem setObj_partners (d : Dev) (i n v : Nat) : (d.setObj i n v).partners = d.partners := rfl
@[simp] theorem setObj_bonds (d : Dev) (i n v : Nat) : (d.setObj i n v).bonds = d.bonds := rfl
@[simp] theorem setObj_cvus (d : Dev) (i n v : Nat) : (d.setObj i n v).cvus = d.cvus := rfl
@[simp] theorem setObj_dbg (d : Dev) (i n v : Nat) : (d.setObj i n v).dbg = d.dbg := rfl
@[simp] theorem setObj_glast (d : Dev) (i n v : Nat) : (d.setObj i n v).glast = d.glast := rfl
@[simp] theorem setObj_dict (d : Dev) (i n v : Nat) : (d.setObj i n v).dict = d.dict := rfl
@[simp] theorem setObj_pcie (d : Dev) (i n v : Nat) : (d.setObj i n v).pcie = d.pcie := rfl
@[simp] theorem setObj_objs (d : Dev) (i n v : Nat) : (d.setObj i n v).objs = d.objs.put (i * 256 + n) v := rfl
@[simp] theorem setObj_octs (d : Dev) (i n v : Nat) : (d.setObj i n v).octs = d.octs := rfl
@[simp] theorem setObj_out (d : Dev) (i n v : Nat) : (d.setObj i n v).out = d.out := rfl

@[simp] theorem setOct_fc (d : Dev) (i n : Nat) (v : List W8) : (d.setOct i n v).fc = d.fc := rfl
@[simp] theorem setOct_freeCtr (d : Dev) (i n : Nat) (v : List W8) : (d.setOct i n v).freeCtr = d.freeCtr := rfl
@[simp] theorem setOct_mem (d : Dev) (i n : Nat) (v : List W8) : (d.setOct i n v).mem = d.mem := rfl
@[simp] theorem setOct_threads (d : Dev) (i n : Nat) (v : List W8) : (d.setOct i n v).threads = d.threads := rfl
@[simp] theorem setOct_tillers (d : Dev) (i n : Nat) (v : List W8) : (d.setOct i n v).tillers = d.tillers := rfl
@[simp] theorem setOct_seeds (d : Dev) (i n : Nat) (v : List W8) : (d.setOct i n v).seeds = d.seeds := rfl
@[simp] theorem setOct_evc (d : Dev) (i n : Nat) (v : List W8) : (d.setOct i n v).evc = d.evc := rfl
@[simp] theorem setOct_atoms (d : Dev) (i n : Nat) (v : List W8) : (d.setOct i n v).atoms = d.atoms := rfl
@[simp] theorem setOct_stlb (d : Dev) (i n : Nat) (v : List W8) : (d.setOct i n v).stlb = d.stlb := rfl
@[simp] theorem setOct_walkQ (d : Dev) (i n : Nat) (v : List W8) : (d.setOct i n v).walkQ = d.walkQ := rfl
@[simp] theorem setOct_xiLow (d : Dev) (i n : Nat) (v : List W8) : (d.setOct i n v).xiLow = d.xiLow := rfl
@[simp] theorem setOct_fabPri (d : Dev) (i n : Nat) (v : List W8) : (d.setOct i n v).fabPri = d.fabPri := rfl
@[simp] theorem setOct_scrub (d : Dev) (i n : Nat) (v : List W8) : (d.setOct i n v).scrub = d.scrub := rfl
@[simp] theorem setOct_alm (d : Dev) (i n : Nat) (v : List W8) : (d.setOct i n v).alm = d.alm := rfl
@[simp] theorem setOct_doms (d : Dev) (i n : Nat) (v : List W8) : (d.setOct i n v).doms = d.doms := rfl
@[simp] theorem setOct_hl (d : Dev) (i n : Nat) (v : List W8) : (d.setOct i n v).hl = d.hl := rfl
@[simp] theorem setOct_engines (d : Dev) (i n : Nat) (v : List W8) : (d.setOct i n v).engines = d.engines := rfl
@[simp] theorem setOct_drills (d : Dev) (i n : Nat) (v : List W8) : (d.setOct i n v).drills = d.drills := rfl
@[simp] theorem setOct_ports (d : Dev) (i n : Nat) (v : List W8) : (d.setOct i n v).ports = d.ports := rfl
@[simp] theorem setOct_furrows (d : Dev) (i n : Nat) (v : List W8) : (d.setOct i n v).furrows = d.furrows := rfl
@[simp] theorem setOct_pengs (d : Dev) (i n : Nat) (v : List W8) : (d.setOct i n v).pengs = d.pengs := rfl
@[simp] theorem setOct_partners (d : Dev) (i n : Nat) (v : List W8) : (d.setOct i n v).partners = d.partners := rfl
@[simp] theorem setOct_bonds (d : Dev) (i n : Nat) (v : List W8) : (d.setOct i n v).bonds = d.bonds := rfl
@[simp] theorem setOct_cvus (d : Dev) (i n : Nat) (v : List W8) : (d.setOct i n v).cvus = d.cvus := rfl
@[simp] theorem setOct_dbg (d : Dev) (i n : Nat) (v : List W8) : (d.setOct i n v).dbg = d.dbg := rfl
@[simp] theorem setOct_glast (d : Dev) (i n : Nat) (v : List W8) : (d.setOct i n v).glast = d.glast := rfl
@[simp] theorem setOct_dict (d : Dev) (i n : Nat) (v : List W8) : (d.setOct i n v).dict = d.dict := rfl
@[simp] theorem setOct_pcie (d : Dev) (i n : Nat) (v : List W8) : (d.setOct i n v).pcie = d.pcie := rfl
@[simp] theorem setOct_objs (d : Dev) (i n : Nat) (v : List W8) : (d.setOct i n v).objs = d.objs := rfl
@[simp] theorem setOct_octs (d : Dev) (i n : Nat) (v : List W8) : (d.setOct i n v).octs = d.octs.put (i * 256 + n) v := rfl
@[simp] theorem setOct_out (d : Dev) (i n : Nat) (v : List W8) : (d.setOct i n v).out = d.out := rfl

@[simp] theorem setSrc_fc (d : Dev) (n : Nat) (x : EvSrc) : (d.setSrc n x).fc = d.fc := rfl
@[simp] theorem setSrc_freeCtr (d : Dev) (n : Nat) (x : EvSrc) : (d.setSrc n x).freeCtr = d.freeCtr := rfl
@[simp] theorem setSrc_mem (d : Dev) (n : Nat) (x : EvSrc) : (d.setSrc n x).mem = d.mem := rfl
@[simp] theorem setSrc_threads (d : Dev) (n : Nat) (x : EvSrc) : (d.setSrc n x).threads = d.threads := rfl
@[simp] theorem setSrc_tillers (d : Dev) (n : Nat) (x : EvSrc) : (d.setSrc n x).tillers = d.tillers := rfl
@[simp] theorem setSrc_seeds (d : Dev) (n : Nat) (x : EvSrc) : (d.setSrc n x).seeds = d.seeds := rfl
@[simp] theorem setSrc_evc (d : Dev) (n : Nat) (x : EvSrc) : (d.setSrc n x).evc = { d.evc with src := d.evc.src.put n x } := rfl
@[simp] theorem setSrc_atoms (d : Dev) (n : Nat) (x : EvSrc) : (d.setSrc n x).atoms = d.atoms := rfl
@[simp] theorem setSrc_stlb (d : Dev) (n : Nat) (x : EvSrc) : (d.setSrc n x).stlb = d.stlb := rfl
@[simp] theorem setSrc_walkQ (d : Dev) (n : Nat) (x : EvSrc) : (d.setSrc n x).walkQ = d.walkQ := rfl
@[simp] theorem setSrc_xiLow (d : Dev) (n : Nat) (x : EvSrc) : (d.setSrc n x).xiLow = d.xiLow := rfl
@[simp] theorem setSrc_fabPri (d : Dev) (n : Nat) (x : EvSrc) : (d.setSrc n x).fabPri = d.fabPri := rfl
@[simp] theorem setSrc_scrub (d : Dev) (n : Nat) (x : EvSrc) : (d.setSrc n x).scrub = d.scrub := rfl
@[simp] theorem setSrc_alm (d : Dev) (n : Nat) (x : EvSrc) : (d.setSrc n x).alm = d.alm := rfl
@[simp] theorem setSrc_doms (d : Dev) (n : Nat) (x : EvSrc) : (d.setSrc n x).doms = d.doms := rfl
@[simp] theorem setSrc_hl (d : Dev) (n : Nat) (x : EvSrc) : (d.setSrc n x).hl = d.hl := rfl
@[simp] theorem setSrc_engines (d : Dev) (n : Nat) (x : EvSrc) : (d.setSrc n x).engines = d.engines := rfl
@[simp] theorem setSrc_drills (d : Dev) (n : Nat) (x : EvSrc) : (d.setSrc n x).drills = d.drills := rfl
@[simp] theorem setSrc_ports (d : Dev) (n : Nat) (x : EvSrc) : (d.setSrc n x).ports = d.ports := rfl
@[simp] theorem setSrc_furrows (d : Dev) (n : Nat) (x : EvSrc) : (d.setSrc n x).furrows = d.furrows := rfl
@[simp] theorem setSrc_pengs (d : Dev) (n : Nat) (x : EvSrc) : (d.setSrc n x).pengs = d.pengs := rfl
@[simp] theorem setSrc_partners (d : Dev) (n : Nat) (x : EvSrc) : (d.setSrc n x).partners = d.partners := rfl
@[simp] theorem setSrc_bonds (d : Dev) (n : Nat) (x : EvSrc) : (d.setSrc n x).bonds = d.bonds := rfl
@[simp] theorem setSrc_cvus (d : Dev) (n : Nat) (x : EvSrc) : (d.setSrc n x).cvus = d.cvus := rfl
@[simp] theorem setSrc_dbg (d : Dev) (n : Nat) (x : EvSrc) : (d.setSrc n x).dbg = d.dbg := rfl
@[simp] theorem setSrc_glast (d : Dev) (n : Nat) (x : EvSrc) : (d.setSrc n x).glast = d.glast := rfl
@[simp] theorem setSrc_dict (d : Dev) (n : Nat) (x : EvSrc) : (d.setSrc n x).dict = d.dict := rfl
@[simp] theorem setSrc_pcie (d : Dev) (n : Nat) (x : EvSrc) : (d.setSrc n x).pcie = d.pcie := rfl
@[simp] theorem setSrc_objs (d : Dev) (n : Nat) (x : EvSrc) : (d.setSrc n x).objs = d.objs := rfl
@[simp] theorem setSrc_octs (d : Dev) (n : Nat) (x : EvSrc) : (d.setSrc n x).octs = d.octs := rfl
@[simp] theorem setSrc_out (d : Dev) (n : Nat) (x : EvSrc) : (d.setSrc n x).out = d.out := rfl

@[simp] theorem setHl_fc (d : Dev) (f : Hl → Hl) : (d.setHl f).fc = d.fc := rfl
@[simp] theorem setHl_freeCtr (d : Dev) (f : Hl → Hl) : (d.setHl f).freeCtr = d.freeCtr := rfl
@[simp] theorem setHl_mem (d : Dev) (f : Hl → Hl) : (d.setHl f).mem = d.mem := rfl
@[simp] theorem setHl_threads (d : Dev) (f : Hl → Hl) : (d.setHl f).threads = d.threads := rfl
@[simp] theorem setHl_tillers (d : Dev) (f : Hl → Hl) : (d.setHl f).tillers = d.tillers := rfl
@[simp] theorem setHl_seeds (d : Dev) (f : Hl → Hl) : (d.setHl f).seeds = d.seeds := rfl
@[simp] theorem setHl_evc (d : Dev) (f : Hl → Hl) : (d.setHl f).evc = d.evc := rfl
@[simp] theorem setHl_atoms (d : Dev) (f : Hl → Hl) : (d.setHl f).atoms = d.atoms := rfl
@[simp] theorem setHl_stlb (d : Dev) (f : Hl → Hl) : (d.setHl f).stlb = d.stlb := rfl
@[simp] theorem setHl_walkQ (d : Dev) (f : Hl → Hl) : (d.setHl f).walkQ = d.walkQ := rfl
@[simp] theorem setHl_xiLow (d : Dev) (f : Hl → Hl) : (d.setHl f).xiLow = d.xiLow := rfl
@[simp] theorem setHl_fabPri (d : Dev) (f : Hl → Hl) : (d.setHl f).fabPri = d.fabPri := rfl
@[simp] theorem setHl_scrub (d : Dev) (f : Hl → Hl) : (d.setHl f).scrub = d.scrub := rfl
@[simp] theorem setHl_alm (d : Dev) (f : Hl → Hl) : (d.setHl f).alm = d.alm := rfl
@[simp] theorem setHl_doms (d : Dev) (f : Hl → Hl) : (d.setHl f).doms = d.doms := rfl
@[simp] theorem setHl_hl (d : Dev) (f : Hl → Hl) : (d.setHl f).hl = f d.hl := rfl
@[simp] theorem setHl_engines (d : Dev) (f : Hl → Hl) : (d.setHl f).engines = d.engines := rfl
@[simp] theorem setHl_drills (d : Dev) (f : Hl → Hl) : (d.setHl f).drills = d.drills := rfl
@[simp] theorem setHl_ports (d : Dev) (f : Hl → Hl) : (d.setHl f).ports = d.ports := rfl
@[simp] theorem setHl_furrows (d : Dev) (f : Hl → Hl) : (d.setHl f).furrows = d.furrows := rfl
@[simp] theorem setHl_pengs (d : Dev) (f : Hl → Hl) : (d.setHl f).pengs = d.pengs := rfl
@[simp] theorem setHl_partners (d : Dev) (f : Hl → Hl) : (d.setHl f).partners = d.partners := rfl
@[simp] theorem setHl_bonds (d : Dev) (f : Hl → Hl) : (d.setHl f).bonds = d.bonds := rfl
@[simp] theorem setHl_cvus (d : Dev) (f : Hl → Hl) : (d.setHl f).cvus = d.cvus := rfl
@[simp] theorem setHl_dbg (d : Dev) (f : Hl → Hl) : (d.setHl f).dbg = d.dbg := rfl
@[simp] theorem setHl_glast (d : Dev) (f : Hl → Hl) : (d.setHl f).glast = d.glast := rfl
@[simp] theorem setHl_dict (d : Dev) (f : Hl → Hl) : (d.setHl f).dict = d.dict := rfl
@[simp] theorem setHl_pcie (d : Dev) (f : Hl → Hl) : (d.setHl f).pcie = d.pcie := rfl
@[simp] theorem setHl_objs (d : Dev) (f : Hl → Hl) : (d.setHl f).objs = d.objs := rfl
@[simp] theorem setHl_octs (d : Dev) (f : Hl → Hl) : (d.setHl f).octs = d.octs := rfl
@[simp] theorem setHl_out (d : Dev) (f : Hl → Hl) : (d.setHl f).out = d.out := rfl

@[simp] theorem setDbg_fc (d : Dev) (f : Dbg → Dbg) : (d.setDbg f).fc = d.fc := rfl
@[simp] theorem setDbg_freeCtr (d : Dev) (f : Dbg → Dbg) : (d.setDbg f).freeCtr = d.freeCtr := rfl
@[simp] theorem setDbg_mem (d : Dev) (f : Dbg → Dbg) : (d.setDbg f).mem = d.mem := rfl
@[simp] theorem setDbg_threads (d : Dev) (f : Dbg → Dbg) : (d.setDbg f).threads = d.threads := rfl
@[simp] theorem setDbg_tillers (d : Dev) (f : Dbg → Dbg) : (d.setDbg f).tillers = d.tillers := rfl
@[simp] theorem setDbg_seeds (d : Dev) (f : Dbg → Dbg) : (d.setDbg f).seeds = d.seeds := rfl
@[simp] theorem setDbg_evc (d : Dev) (f : Dbg → Dbg) : (d.setDbg f).evc = d.evc := rfl
@[simp] theorem setDbg_atoms (d : Dev) (f : Dbg → Dbg) : (d.setDbg f).atoms = d.atoms := rfl
@[simp] theorem setDbg_stlb (d : Dev) (f : Dbg → Dbg) : (d.setDbg f).stlb = d.stlb := rfl
@[simp] theorem setDbg_walkQ (d : Dev) (f : Dbg → Dbg) : (d.setDbg f).walkQ = d.walkQ := rfl
@[simp] theorem setDbg_xiLow (d : Dev) (f : Dbg → Dbg) : (d.setDbg f).xiLow = d.xiLow := rfl
@[simp] theorem setDbg_fabPri (d : Dev) (f : Dbg → Dbg) : (d.setDbg f).fabPri = d.fabPri := rfl
@[simp] theorem setDbg_scrub (d : Dev) (f : Dbg → Dbg) : (d.setDbg f).scrub = d.scrub := rfl
@[simp] theorem setDbg_alm (d : Dev) (f : Dbg → Dbg) : (d.setDbg f).alm = d.alm := rfl
@[simp] theorem setDbg_doms (d : Dev) (f : Dbg → Dbg) : (d.setDbg f).doms = d.doms := rfl
@[simp] theorem setDbg_hl (d : Dev) (f : Dbg → Dbg) : (d.setDbg f).hl = d.hl := rfl
@[simp] theorem setDbg_engines (d : Dev) (f : Dbg → Dbg) : (d.setDbg f).engines = d.engines := rfl
@[simp] theorem setDbg_drills (d : Dev) (f : Dbg → Dbg) : (d.setDbg f).drills = d.drills := rfl
@[simp] theorem setDbg_ports (d : Dev) (f : Dbg → Dbg) : (d.setDbg f).ports = d.ports := rfl
@[simp] theorem setDbg_furrows (d : Dev) (f : Dbg → Dbg) : (d.setDbg f).furrows = d.furrows := rfl
@[simp] theorem setDbg_pengs (d : Dev) (f : Dbg → Dbg) : (d.setDbg f).pengs = d.pengs := rfl
@[simp] theorem setDbg_partners (d : Dev) (f : Dbg → Dbg) : (d.setDbg f).partners = d.partners := rfl
@[simp] theorem setDbg_bonds (d : Dev) (f : Dbg → Dbg) : (d.setDbg f).bonds = d.bonds := rfl
@[simp] theorem setDbg_cvus (d : Dev) (f : Dbg → Dbg) : (d.setDbg f).cvus = d.cvus := rfl
@[simp] theorem setDbg_dbg (d : Dev) (f : Dbg → Dbg) : (d.setDbg f).dbg = f d.dbg := rfl
@[simp] theorem setDbg_glast (d : Dev) (f : Dbg → Dbg) : (d.setDbg f).glast = d.glast := rfl
@[simp] theorem setDbg_dict (d : Dev) (f : Dbg → Dbg) : (d.setDbg f).dict = d.dict := rfl
@[simp] theorem setDbg_pcie (d : Dev) (f : Dbg → Dbg) : (d.setDbg f).pcie = d.pcie := rfl
@[simp] theorem setDbg_objs (d : Dev) (f : Dbg → Dbg) : (d.setDbg f).objs = d.objs := rfl
@[simp] theorem setDbg_octs (d : Dev) (f : Dbg → Dbg) : (d.setDbg f).octs = d.octs := rfl
@[simp] theorem setDbg_out (d : Dev) (f : Dbg → Dbg) : (d.setDbg f).out = d.out := rfl

@[simp] theorem setPort_fc (d : Dev) (p : Nat) (x : Port) : (d.setPort p x).fc = d.fc := rfl
@[simp] theorem setPort_freeCtr (d : Dev) (p : Nat) (x : Port) : (d.setPort p x).freeCtr = d.freeCtr := rfl
@[simp] theorem setPort_mem (d : Dev) (p : Nat) (x : Port) : (d.setPort p x).mem = d.mem := rfl
@[simp] theorem setPort_threads (d : Dev) (p : Nat) (x : Port) : (d.setPort p x).threads = d.threads := rfl
@[simp] theorem setPort_tillers (d : Dev) (p : Nat) (x : Port) : (d.setPort p x).tillers = d.tillers := rfl
@[simp] theorem setPort_seeds (d : Dev) (p : Nat) (x : Port) : (d.setPort p x).seeds = d.seeds := rfl
@[simp] theorem setPort_evc (d : Dev) (p : Nat) (x : Port) : (d.setPort p x).evc = d.evc := rfl
@[simp] theorem setPort_atoms (d : Dev) (p : Nat) (x : Port) : (d.setPort p x).atoms = d.atoms := rfl
@[simp] theorem setPort_stlb (d : Dev) (p : Nat) (x : Port) : (d.setPort p x).stlb = d.stlb := rfl
@[simp] theorem setPort_walkQ (d : Dev) (p : Nat) (x : Port) : (d.setPort p x).walkQ = d.walkQ := rfl
@[simp] theorem setPort_xiLow (d : Dev) (p : Nat) (x : Port) : (d.setPort p x).xiLow = d.xiLow := rfl
@[simp] theorem setPort_fabPri (d : Dev) (p : Nat) (x : Port) : (d.setPort p x).fabPri = d.fabPri := rfl
@[simp] theorem setPort_scrub (d : Dev) (p : Nat) (x : Port) : (d.setPort p x).scrub = d.scrub := rfl
@[simp] theorem setPort_alm (d : Dev) (p : Nat) (x : Port) : (d.setPort p x).alm = d.alm := rfl
@[simp] theorem setPort_doms (d : Dev) (p : Nat) (x : Port) : (d.setPort p x).doms = d.doms := rfl
@[simp] theorem setPort_hl (d : Dev) (p : Nat) (x : Port) : (d.setPort p x).hl = d.hl := rfl
@[simp] theorem setPort_engines (d : Dev) (p : Nat) (x : Port) : (d.setPort p x).engines = d.engines := rfl
@[simp] theorem setPort_drills (d : Dev) (p : Nat) (x : Port) : (d.setPort p x).drills = d.drills := rfl
@[simp] theorem setPort_ports (d : Dev) (p : Nat) (x : Port) : (d.setPort p x).ports = d.ports.put p x := rfl
@[simp] theorem setPort_furrows (d : Dev) (p : Nat) (x : Port) : (d.setPort p x).furrows = d.furrows := rfl
@[simp] theorem setPort_pengs (d : Dev) (p : Nat) (x : Port) : (d.setPort p x).pengs = d.pengs := rfl
@[simp] theorem setPort_partners (d : Dev) (p : Nat) (x : Port) : (d.setPort p x).partners = d.partners := rfl
@[simp] theorem setPort_bonds (d : Dev) (p : Nat) (x : Port) : (d.setPort p x).bonds = d.bonds := rfl
@[simp] theorem setPort_cvus (d : Dev) (p : Nat) (x : Port) : (d.setPort p x).cvus = d.cvus := rfl
@[simp] theorem setPort_dbg (d : Dev) (p : Nat) (x : Port) : (d.setPort p x).dbg = d.dbg := rfl
@[simp] theorem setPort_glast (d : Dev) (p : Nat) (x : Port) : (d.setPort p x).glast = d.glast := rfl
@[simp] theorem setPort_dict (d : Dev) (p : Nat) (x : Port) : (d.setPort p x).dict = d.dict := rfl
@[simp] theorem setPort_pcie (d : Dev) (p : Nat) (x : Port) : (d.setPort p x).pcie = d.pcie := rfl
@[simp] theorem setPort_objs (d : Dev) (p : Nat) (x : Port) : (d.setPort p x).objs = d.objs := rfl
@[simp] theorem setPort_octs (d : Dev) (p : Nat) (x : Port) : (d.setPort p x).octs = d.octs := rfl
@[simp] theorem setPort_out (d : Dev) (p : Nat) (x : Port) : (d.setPort p x).out = d.out := rfl

@[simp] theorem setFurrow_fc (d : Dev) (n : Nat) (x : Furrow) : (d.setFurrow n x).fc = d.fc := rfl
@[simp] theorem setFurrow_freeCtr (d : Dev) (n : Nat) (x : Furrow) : (d.setFurrow n x).freeCtr = d.freeCtr := rfl
@[simp] theorem setFurrow_mem (d : Dev) (n : Nat) (x : Furrow) : (d.setFurrow n x).mem = d.mem := rfl
@[simp] theorem setFurrow_threads (d : Dev) (n : Nat) (x : Furrow) : (d.setFurrow n x).threads = d.threads := rfl
@[simp] theorem setFurrow_tillers (d : Dev) (n : Nat) (x : Furrow) : (d.setFurrow n x).tillers = d.tillers := rfl
@[simp] theorem setFurrow_seeds (d : Dev) (n : Nat) (x : Furrow) : (d.setFurrow n x).seeds = d.seeds := rfl
@[simp] theorem setFurrow_evc (d : Dev) (n : Nat) (x : Furrow) : (d.setFurrow n x).evc = d.evc := rfl
@[simp] theorem setFurrow_atoms (d : Dev) (n : Nat) (x : Furrow) : (d.setFurrow n x).atoms = d.atoms := rfl
@[simp] theorem setFurrow_stlb (d : Dev) (n : Nat) (x : Furrow) : (d.setFurrow n x).stlb = d.stlb := rfl
@[simp] theorem setFurrow_walkQ (d : Dev) (n : Nat) (x : Furrow) : (d.setFurrow n x).walkQ = d.walkQ := rfl
@[simp] theorem setFurrow_xiLow (d : Dev) (n : Nat) (x : Furrow) : (d.setFurrow n x).xiLow = d.xiLow := rfl
@[simp] theorem setFurrow_fabPri (d : Dev) (n : Nat) (x : Furrow) : (d.setFurrow n x).fabPri = d.fabPri := rfl
@[simp] theorem setFurrow_scrub (d : Dev) (n : Nat) (x : Furrow) : (d.setFurrow n x).scrub = d.scrub := rfl
@[simp] theorem setFurrow_alm (d : Dev) (n : Nat) (x : Furrow) : (d.setFurrow n x).alm = d.alm := rfl
@[simp] theorem setFurrow_doms (d : Dev) (n : Nat) (x : Furrow) : (d.setFurrow n x).doms = d.doms := rfl
@[simp] theorem setFurrow_hl (d : Dev) (n : Nat) (x : Furrow) : (d.setFurrow n x).hl = d.hl := rfl
@[simp] theorem setFurrow_engines (d : Dev) (n : Nat) (x : Furrow) : (d.setFurrow n x).engines = d.engines := rfl
@[simp] theorem setFurrow_drills (d : Dev) (n : Nat) (x : Furrow) : (d.setFurrow n x).drills = d.drills := rfl
@[simp] theorem setFurrow_ports (d : Dev) (n : Nat) (x : Furrow) : (d.setFurrow n x).ports = d.ports := rfl
@[simp] theorem setFurrow_furrows (d : Dev) (n : Nat) (x : Furrow) : (d.setFurrow n x).furrows = d.furrows.put n x := rfl
@[simp] theorem setFurrow_pengs (d : Dev) (n : Nat) (x : Furrow) : (d.setFurrow n x).pengs = d.pengs := rfl
@[simp] theorem setFurrow_partners (d : Dev) (n : Nat) (x : Furrow) : (d.setFurrow n x).partners = d.partners := rfl
@[simp] theorem setFurrow_bonds (d : Dev) (n : Nat) (x : Furrow) : (d.setFurrow n x).bonds = d.bonds := rfl
@[simp] theorem setFurrow_cvus (d : Dev) (n : Nat) (x : Furrow) : (d.setFurrow n x).cvus = d.cvus := rfl
@[simp] theorem setFurrow_dbg (d : Dev) (n : Nat) (x : Furrow) : (d.setFurrow n x).dbg = d.dbg := rfl
@[simp] theorem setFurrow_glast (d : Dev) (n : Nat) (x : Furrow) : (d.setFurrow n x).glast = d.glast := rfl
@[simp] theorem setFurrow_dict (d : Dev) (n : Nat) (x : Furrow) : (d.setFurrow n x).dict = d.dict := rfl
@[simp] theorem setFurrow_pcie (d : Dev) (n : Nat) (x : Furrow) : (d.setFurrow n x).pcie = d.pcie := rfl
@[simp] theorem setFurrow_objs (d : Dev) (n : Nat) (x : Furrow) : (d.setFurrow n x).objs = d.objs := rfl
@[simp] theorem setFurrow_octs (d : Dev) (n : Nat) (x : Furrow) : (d.setFurrow n x).octs = d.octs := rfl
@[simp] theorem setFurrow_out (d : Dev) (n : Nat) (x : Furrow) : (d.setFurrow n x).out = d.out := rfl

@[simp] theorem setCvu_fc (d : Dev) (u : Nat) (x : Cvu) : (d.setCvu u x).fc = d.fc := rfl
@[simp] theorem setCvu_freeCtr (d : Dev) (u : Nat) (x : Cvu) : (d.setCvu u x).freeCtr = d.freeCtr := rfl
@[simp] theorem setCvu_mem (d : Dev) (u : Nat) (x : Cvu) : (d.setCvu u x).mem = d.mem := rfl
@[simp] theorem setCvu_threads (d : Dev) (u : Nat) (x : Cvu) : (d.setCvu u x).threads = d.threads := rfl
@[simp] theorem setCvu_tillers (d : Dev) (u : Nat) (x : Cvu) : (d.setCvu u x).tillers = d.tillers := rfl
@[simp] theorem setCvu_seeds (d : Dev) (u : Nat) (x : Cvu) : (d.setCvu u x).seeds = d.seeds := rfl
@[simp] theorem setCvu_evc (d : Dev) (u : Nat) (x : Cvu) : (d.setCvu u x).evc = d.evc := rfl
@[simp] theorem setCvu_atoms (d : Dev) (u : Nat) (x : Cvu) : (d.setCvu u x).atoms = d.atoms := rfl
@[simp] theorem setCvu_stlb (d : Dev) (u : Nat) (x : Cvu) : (d.setCvu u x).stlb = d.stlb := rfl
@[simp] theorem setCvu_walkQ (d : Dev) (u : Nat) (x : Cvu) : (d.setCvu u x).walkQ = d.walkQ := rfl
@[simp] theorem setCvu_xiLow (d : Dev) (u : Nat) (x : Cvu) : (d.setCvu u x).xiLow = d.xiLow := rfl
@[simp] theorem setCvu_fabPri (d : Dev) (u : Nat) (x : Cvu) : (d.setCvu u x).fabPri = d.fabPri := rfl
@[simp] theorem setCvu_scrub (d : Dev) (u : Nat) (x : Cvu) : (d.setCvu u x).scrub = d.scrub := rfl
@[simp] theorem setCvu_alm (d : Dev) (u : Nat) (x : Cvu) : (d.setCvu u x).alm = d.alm := rfl
@[simp] theorem setCvu_doms (d : Dev) (u : Nat) (x : Cvu) : (d.setCvu u x).doms = d.doms := rfl
@[simp] theorem setCvu_hl (d : Dev) (u : Nat) (x : Cvu) : (d.setCvu u x).hl = d.hl := rfl
@[simp] theorem setCvu_engines (d : Dev) (u : Nat) (x : Cvu) : (d.setCvu u x).engines = d.engines := rfl
@[simp] theorem setCvu_drills (d : Dev) (u : Nat) (x : Cvu) : (d.setCvu u x).drills = d.drills := rfl
@[simp] theorem setCvu_ports (d : Dev) (u : Nat) (x : Cvu) : (d.setCvu u x).ports = d.ports := rfl
@[simp] theorem setCvu_furrows (d : Dev) (u : Nat) (x : Cvu) : (d.setCvu u x).furrows = d.furrows := rfl
@[simp] theorem setCvu_pengs (d : Dev) (u : Nat) (x : Cvu) : (d.setCvu u x).pengs = d.pengs := rfl
@[simp] theorem setCvu_partners (d : Dev) (u : Nat) (x : Cvu) : (d.setCvu u x).partners = d.partners := rfl
@[simp] theorem setCvu_bonds (d : Dev) (u : Nat) (x : Cvu) : (d.setCvu u x).bonds = d.bonds := rfl
@[simp] theorem setCvu_cvus (d : Dev) (u : Nat) (x : Cvu) : (d.setCvu u x).cvus = d.cvus.put u x := rfl
@[simp] theorem setCvu_dbg (d : Dev) (u : Nat) (x : Cvu) : (d.setCvu u x).dbg = d.dbg := rfl
@[simp] theorem setCvu_glast (d : Dev) (u : Nat) (x : Cvu) : (d.setCvu u x).glast = d.glast := rfl
@[simp] theorem setCvu_dict (d : Dev) (u : Nat) (x : Cvu) : (d.setCvu u x).dict = d.dict := rfl
@[simp] theorem setCvu_pcie (d : Dev) (u : Nat) (x : Cvu) : (d.setCvu u x).pcie = d.pcie := rfl
@[simp] theorem setCvu_objs (d : Dev) (u : Nat) (x : Cvu) : (d.setCvu u x).objs = d.objs := rfl
@[simp] theorem setCvu_octs (d : Dev) (u : Nat) (x : Cvu) : (d.setCvu u x).octs = d.octs := rfl
@[simp] theorem setCvu_out (d : Dev) (u : Nat) (x : Cvu) : (d.setCvu u x).out = d.out := rfl

@[simp] theorem setSession_fc (d : Dev) (n : Nat) (x : Session) : (d.setSession n x).fc = d.fc := rfl
@[simp] theorem setSession_freeCtr (d : Dev) (n : Nat) (x : Session) : (d.setSession n x).freeCtr = d.freeCtr := rfl
@[simp] theorem setSession_mem (d : Dev) (n : Nat) (x : Session) : (d.setSession n x).mem = d.mem := rfl
@[simp] theorem setSession_threads (d : Dev) (n : Nat) (x : Session) : (d.setSession n x).threads = d.threads := rfl
@[simp] theorem setSession_tillers (d : Dev) (n : Nat) (x : Session) : (d.setSession n x).tillers = d.tillers := rfl
@[simp] theorem setSession_seeds (d : Dev) (n : Nat) (x : Session) : (d.setSession n x).seeds = d.seeds := rfl
@[simp] theorem setSession_evc (d : Dev) (n : Nat) (x : Session) : (d.setSession n x).evc = d.evc := rfl
@[simp] theorem setSession_atoms (d : Dev) (n : Nat) (x : Session) : (d.setSession n x).atoms = d.atoms := rfl
@[simp] theorem setSession_stlb (d : Dev) (n : Nat) (x : Session) : (d.setSession n x).stlb = d.stlb := rfl
@[simp] theorem setSession_walkQ (d : Dev) (n : Nat) (x : Session) : (d.setSession n x).walkQ = d.walkQ := rfl
@[simp] theorem setSession_xiLow (d : Dev) (n : Nat) (x : Session) : (d.setSession n x).xiLow = d.xiLow := rfl
@[simp] theorem setSession_fabPri (d : Dev) (n : Nat) (x : Session) : (d.setSession n x).fabPri = d.fabPri := rfl
@[simp] theorem setSession_scrub (d : Dev) (n : Nat) (x : Session) : (d.setSession n x).scrub = d.scrub := rfl
@[simp] theorem setSession_alm (d : Dev) (n : Nat) (x : Session) : (d.setSession n x).alm = d.alm := rfl
@[simp] theorem setSession_doms (d : Dev) (n : Nat) (x : Session) : (d.setSession n x).doms = d.doms := rfl
@[simp] theorem setSession_hl (d : Dev) (n : Nat) (x : Session) : (d.setSession n x).hl = d.hl := rfl
@[simp] theorem setSession_engines (d : Dev) (n : Nat) (x : Session) : (d.setSession n x).engines = d.engines := rfl
@[simp] theorem setSession_drills (d : Dev) (n : Nat) (x : Session) : (d.setSession n x).drills = d.drills := rfl
@[simp] theorem setSession_ports (d : Dev) (n : Nat) (x : Session) : (d.setSession n x).ports = d.ports := rfl
@[simp] theorem setSession_furrows (d : Dev) (n : Nat) (x : Session) : (d.setSession n x).furrows = d.furrows := rfl
@[simp] theorem setSession_pengs (d : Dev) (n : Nat) (x : Session) : (d.setSession n x).pengs = d.pengs := rfl
@[simp] theorem setSession_partners (d : Dev) (n : Nat) (x : Session) : (d.setSession n x).partners = d.partners := rfl
@[simp] theorem setSession_bonds (d : Dev) (n : Nat) (x : Session) : (d.setSession n x).bonds = d.bonds := rfl
@[simp] theorem setSession_cvus (d : Dev) (n : Nat) (x : Session) : (d.setSession n x).cvus = d.cvus := rfl
@[simp] theorem setSession_dbg (d : Dev) (n : Nat) (x : Session) : (d.setSession n x).dbg = d.dbg := rfl
@[simp] theorem setSession_glast (d : Dev) (n : Nat) (x : Session) : (d.setSession n x).glast = d.glast := rfl
@[simp] theorem setSession_dict (d : Dev) (n : Nat) (x : Session) : (d.setSession n x).dict = { d.dict with sessions := d.dict.sessions.put n x } := rfl
@[simp] theorem setSession_pcie (d : Dev) (n : Nat) (x : Session) : (d.setSession n x).pcie = d.pcie := rfl
@[simp] theorem setSession_objs (d : Dev) (n : Nat) (x : Session) : (d.setSession n x).objs = d.objs := rfl
@[simp] theorem setSession_octs (d : Dev) (n : Nat) (x : Session) : (d.setSession n x).octs = d.octs := rfl
@[simp] theorem setSession_out (d : Dev) (n : Nat) (x : Session) : (d.setSession n x).out = d.out := rfl

@[simp] theorem modPort_fc (d : Dev) (p : Nat) (f : Port → Port) : (d.modPort p f).fc = d.fc := rfl
@[simp] theorem modPort_freeCtr (d : Dev) (p : Nat) (f : Port → Port) : (d.modPort p f).freeCtr = d.freeCtr := rfl
@[simp] theorem modPort_mem (d : Dev) (p : Nat) (f : Port → Port) : (d.modPort p f).mem = d.mem := rfl
@[simp] theorem modPort_threads (d : Dev) (p : Nat) (f : Port → Port) : (d.modPort p f).threads = d.threads := rfl
@[simp] theorem modPort_tillers (d : Dev) (p : Nat) (f : Port → Port) : (d.modPort p f).tillers = d.tillers := rfl
@[simp] theorem modPort_seeds (d : Dev) (p : Nat) (f : Port → Port) : (d.modPort p f).seeds = d.seeds := rfl
@[simp] theorem modPort_evc (d : Dev) (p : Nat) (f : Port → Port) : (d.modPort p f).evc = d.evc := rfl
@[simp] theorem modPort_atoms (d : Dev) (p : Nat) (f : Port → Port) : (d.modPort p f).atoms = d.atoms := rfl
@[simp] theorem modPort_stlb (d : Dev) (p : Nat) (f : Port → Port) : (d.modPort p f).stlb = d.stlb := rfl
@[simp] theorem modPort_walkQ (d : Dev) (p : Nat) (f : Port → Port) : (d.modPort p f).walkQ = d.walkQ := rfl
@[simp] theorem modPort_xiLow (d : Dev) (p : Nat) (f : Port → Port) : (d.modPort p f).xiLow = d.xiLow := rfl
@[simp] theorem modPort_fabPri (d : Dev) (p : Nat) (f : Port → Port) : (d.modPort p f).fabPri = d.fabPri := rfl
@[simp] theorem modPort_scrub (d : Dev) (p : Nat) (f : Port → Port) : (d.modPort p f).scrub = d.scrub := rfl
@[simp] theorem modPort_alm (d : Dev) (p : Nat) (f : Port → Port) : (d.modPort p f).alm = d.alm := rfl
@[simp] theorem modPort_doms (d : Dev) (p : Nat) (f : Port → Port) : (d.modPort p f).doms = d.doms := rfl
@[simp] theorem modPort_hl (d : Dev) (p : Nat) (f : Port → Port) : (d.modPort p f).hl = d.hl := rfl
@[simp] theorem modPort_engines (d : Dev) (p : Nat) (f : Port → Port) : (d.modPort p f).engines = d.engines := rfl
@[simp] theorem modPort_drills (d : Dev) (p : Nat) (f : Port → Port) : (d.modPort p f).drills = d.drills := rfl
@[simp] theorem modPort_ports (d : Dev) (p : Nat) (f : Port → Port) : (d.modPort p f).ports = d.ports.put p (f (d.port p)) := rfl
@[simp] theorem modPort_furrows (d : Dev) (p : Nat) (f : Port → Port) : (d.modPort p f).furrows = d.furrows := rfl
@[simp] theorem modPort_pengs (d : Dev) (p : Nat) (f : Port → Port) : (d.modPort p f).pengs = d.pengs := rfl
@[simp] theorem modPort_partners (d : Dev) (p : Nat) (f : Port → Port) : (d.modPort p f).partners = d.partners := rfl
@[simp] theorem modPort_bonds (d : Dev) (p : Nat) (f : Port → Port) : (d.modPort p f).bonds = d.bonds := rfl
@[simp] theorem modPort_cvus (d : Dev) (p : Nat) (f : Port → Port) : (d.modPort p f).cvus = d.cvus := rfl
@[simp] theorem modPort_dbg (d : Dev) (p : Nat) (f : Port → Port) : (d.modPort p f).dbg = d.dbg := rfl
@[simp] theorem modPort_glast (d : Dev) (p : Nat) (f : Port → Port) : (d.modPort p f).glast = d.glast := rfl
@[simp] theorem modPort_dict (d : Dev) (p : Nat) (f : Port → Port) : (d.modPort p f).dict = d.dict := rfl
@[simp] theorem modPort_pcie (d : Dev) (p : Nat) (f : Port → Port) : (d.modPort p f).pcie = d.pcie := rfl
@[simp] theorem modPort_objs (d : Dev) (p : Nat) (f : Port → Port) : (d.modPort p f).objs = d.objs := rfl
@[simp] theorem modPort_octs (d : Dev) (p : Nat) (f : Port → Port) : (d.modPort p f).octs = d.octs := rfl
@[simp] theorem modPort_out (d : Dev) (p : Nat) (f : Port → Port) : (d.modPort p f).out = d.out := rfl

@[simp] theorem setBond_fc (d : Dev) (b : Nat) (x : Bond) : (d.setBond b x).fc = d.fc := rfl
@[simp] theorem setBond_freeCtr (d : Dev) (b : Nat) (x : Bond) : (d.setBond b x).freeCtr = d.freeCtr := rfl
@[simp] theorem setBond_mem (d : Dev) (b : Nat) (x : Bond) : (d.setBond b x).mem = d.mem := rfl
@[simp] theorem setBond_threads (d : Dev) (b : Nat) (x : Bond) : (d.setBond b x).threads = d.threads := rfl
@[simp] theorem setBond_tillers (d : Dev) (b : Nat) (x : Bond) : (d.setBond b x).tillers = d.tillers := rfl
@[simp] theorem setBond_seeds (d : Dev) (b : Nat) (x : Bond) : (d.setBond b x).seeds = d.seeds := rfl
@[simp] theorem setBond_evc (d : Dev) (b : Nat) (x : Bond) : (d.setBond b x).evc = d.evc := rfl
@[simp] theorem setBond_atoms (d : Dev) (b : Nat) (x : Bond) : (d.setBond b x).atoms = d.atoms := rfl
@[simp] theorem setBond_stlb (d : Dev) (b : Nat) (x : Bond) : (d.setBond b x).stlb = d.stlb := rfl
@[simp] theorem setBond_walkQ (d : Dev) (b : Nat) (x : Bond) : (d.setBond b x).walkQ = d.walkQ := rfl
@[simp] theorem setBond_xiLow (d : Dev) (b : Nat) (x : Bond) : (d.setBond b x).xiLow = d.xiLow := rfl
@[simp] theorem setBond_fabPri (d : Dev) (b : Nat) (x : Bond) : (d.setBond b x).fabPri = d.fabPri := rfl
@[simp] theorem setBond_scrub (d : Dev) (b : Nat) (x : Bond) : (d.setBond b x).scrub = d.scrub := rfl
@[simp] theorem setBond_alm (d : Dev) (b : Nat) (x : Bond) : (d.setBond b x).alm = d.alm := rfl
@[simp] theorem setBond_doms (d : Dev) (b : Nat) (x : Bond) : (d.setBond b x).doms = d.doms := rfl
@[simp] theorem setBond_hl (d : Dev) (b : Nat) (x : Bond) : (d.setBond b x).hl = d.hl := rfl
@[simp] theorem setBond_engines (d : Dev) (b : Nat) (x : Bond) : (d.setBond b x).engines = d.engines := rfl
@[simp] theorem setBond_drills (d : Dev) (b : Nat) (x : Bond) : (d.setBond b x).drills = d.drills := rfl
@[simp] theorem setBond_ports (d : Dev) (b : Nat) (x : Bond) : (d.setBond b x).ports = d.ports := rfl
@[simp] theorem setBond_furrows (d : Dev) (b : Nat) (x : Bond) : (d.setBond b x).furrows = d.furrows := rfl
@[simp] theorem setBond_pengs (d : Dev) (b : Nat) (x : Bond) : (d.setBond b x).pengs = d.pengs := rfl
@[simp] theorem setBond_partners (d : Dev) (b : Nat) (x : Bond) : (d.setBond b x).partners = d.partners := rfl
@[simp] theorem setBond_bonds (d : Dev) (b : Nat) (x : Bond) : (d.setBond b x).bonds = d.bonds.put b x := rfl
@[simp] theorem setBond_cvus (d : Dev) (b : Nat) (x : Bond) : (d.setBond b x).cvus = d.cvus := rfl
@[simp] theorem setBond_dbg (d : Dev) (b : Nat) (x : Bond) : (d.setBond b x).dbg = d.dbg := rfl
@[simp] theorem setBond_glast (d : Dev) (b : Nat) (x : Bond) : (d.setBond b x).glast = d.glast := rfl
@[simp] theorem setBond_dict (d : Dev) (b : Nat) (x : Bond) : (d.setBond b x).dict = d.dict := rfl
@[simp] theorem setBond_pcie (d : Dev) (b : Nat) (x : Bond) : (d.setBond b x).pcie = d.pcie := rfl
@[simp] theorem setBond_objs (d : Dev) (b : Nat) (x : Bond) : (d.setBond b x).objs = d.objs := rfl
@[simp] theorem setBond_octs (d : Dev) (b : Nat) (x : Bond) : (d.setBond b x).octs = d.octs := rfl
@[simp] theorem setBond_out (d : Dev) (b : Nat) (x : Bond) : (d.setBond b x).out = d.out := rfl

@[simp] theorem setEngine_fc (d : Dev) (n : Nat) (x : Engine) : (d.setEngine n x).fc = d.fc := rfl
@[simp] theorem setEngine_freeCtr (d : Dev) (n : Nat) (x : Engine) : (d.setEngine n x).freeCtr = d.freeCtr := rfl
@[simp] theorem setEngine_mem (d : Dev) (n : Nat) (x : Engine) : (d.setEngine n x).mem = d.mem := rfl
@[simp] theorem setEngine_threads (d : Dev) (n : Nat) (x : Engine) : (d.setEngine n x).threads = d.threads := rfl
@[simp] theorem setEngine_tillers (d : Dev) (n : Nat) (x : Engine) : (d.setEngine n x).tillers = d.tillers := rfl
@[simp] theorem setEngine_seeds (d : Dev) (n : Nat) (x : Engine) : (d.setEngine n x).seeds = d.seeds := rfl
@[simp] theorem setEngine_evc (d : Dev) (n : Nat) (x : Engine) : (d.setEngine n x).evc = d.evc := rfl
@[simp] theorem setEngine_atoms (d : Dev) (n : Nat) (x : Engine) : (d.setEngine n x).atoms = d.atoms := rfl
@[simp] theorem setEngine_stlb (d : Dev) (n : Nat) (x : Engine) : (d.setEngine n x).stlb = d.stlb := rfl
@[simp] theorem setEngine_walkQ (d : Dev) (n : Nat) (x : Engine) : (d.setEngine n x).walkQ = d.walkQ := rfl
@[simp] theorem setEngine_xiLow (d : Dev) (n : Nat) (x : Engine) : (d.setEngine n x).xiLow = d.xiLow := rfl
@[simp] theorem setEngine_fabPri (d : Dev) (n : Nat) (x : Engine) : (d.setEngine n x).fabPri = d.fabPri := rfl
@[simp] theorem setEngine_scrub (d : Dev) (n : Nat) (x : Engine) : (d.setEngine n x).scrub = d.scrub := rfl
@[simp] theorem setEngine_alm (d : Dev) (n : Nat) (x : Engine) : (d.setEngine n x).alm = d.alm := rfl
@[simp] theorem setEngine_doms (d : Dev) (n : Nat) (x : Engine) : (d.setEngine n x).doms = d.doms := rfl
@[simp] theorem setEngine_hl (d : Dev) (n : Nat) (x : Engine) : (d.setEngine n x).hl = d.hl := rfl
@[simp] theorem setEngine_engines (d : Dev) (n : Nat) (x : Engine) : (d.setEngine n x).engines = d.engines.put n x := rfl
@[simp] theorem setEngine_drills (d : Dev) (n : Nat) (x : Engine) : (d.setEngine n x).drills = d.drills := rfl
@[simp] theorem setEngine_ports (d : Dev) (n : Nat) (x : Engine) : (d.setEngine n x).ports = d.ports := rfl
@[simp] theorem setEngine_furrows (d : Dev) (n : Nat) (x : Engine) : (d.setEngine n x).furrows = d.furrows := rfl
@[simp] theorem setEngine_pengs (d : Dev) (n : Nat) (x : Engine) : (d.setEngine n x).pengs = d.pengs := rfl
@[simp] theorem setEngine_partners (d : Dev) (n : Nat) (x : Engine) : (d.setEngine n x).partners = d.partners := rfl
@[simp] theorem setEngine_bonds (d : Dev) (n : Nat) (x : Engine) : (d.setEngine n x).bonds = d.bonds := rfl
@[simp] theorem setEngine_cvus (d : Dev) (n : Nat) (x : Engine) : (d.setEngine n x).cvus = d.cvus := rfl
@[simp] theorem setEngine_dbg (d : Dev) (n : Nat) (x : Engine) : (d.setEngine n x).dbg = d.dbg := rfl
@[simp] theorem setEngine_glast (d : Dev) (n : Nat) (x : Engine) : (d.setEngine n x).glast = d.glast := rfl
@[simp] theorem setEngine_dict (d : Dev) (n : Nat) (x : Engine) : (d.setEngine n x).dict = d.dict := rfl
@[simp] theorem setEngine_pcie (d : Dev) (n : Nat) (x : Engine) : (d.setEngine n x).pcie = d.pcie := rfl
@[simp] theorem setEngine_objs (d : Dev) (n : Nat) (x : Engine) : (d.setEngine n x).objs = d.objs := rfl
@[simp] theorem setEngine_octs (d : Dev) (n : Nat) (x : Engine) : (d.setEngine n x).octs = d.octs := rfl
@[simp] theorem setEngine_out (d : Dev) (n : Nat) (x : Engine) : (d.setEngine n x).out = d.out := rfl

@[simp] theorem setDrill_fc (d : Dev) (n : Nat) (x : Drill) : (d.setDrill n x).fc = d.fc := rfl
@[simp] theorem setDrill_freeCtr (d : Dev) (n : Nat) (x : Drill) : (d.setDrill n x).freeCtr = d.freeCtr := rfl
@[simp] theorem setDrill_mem (d : Dev) (n : Nat) (x : Drill) : (d.setDrill n x).mem = d.mem := rfl
@[simp] theorem setDrill_threads (d : Dev) (n : Nat) (x : Drill) : (d.setDrill n x).threads = d.threads := rfl
@[simp] theorem setDrill_tillers (d : Dev) (n : Nat) (x : Drill) : (d.setDrill n x).tillers = d.tillers := rfl
@[simp] theorem setDrill_seeds (d : Dev) (n : Nat) (x : Drill) : (d.setDrill n x).seeds = d.seeds := rfl
@[simp] theorem setDrill_evc (d : Dev) (n : Nat) (x : Drill) : (d.setDrill n x).evc = d.evc := rfl
@[simp] theorem setDrill_atoms (d : Dev) (n : Nat) (x : Drill) : (d.setDrill n x).atoms = d.atoms := rfl
@[simp] theorem setDrill_stlb (d : Dev) (n : Nat) (x : Drill) : (d.setDrill n x).stlb = d.stlb := rfl
@[simp] theorem setDrill_walkQ (d : Dev) (n : Nat) (x : Drill) : (d.setDrill n x).walkQ = d.walkQ := rfl
@[simp] theorem setDrill_xiLow (d : Dev) (n : Nat) (x : Drill) : (d.setDrill n x).xiLow = d.xiLow := rfl
@[simp] theorem setDrill_fabPri (d : Dev) (n : Nat) (x : Drill) : (d.setDrill n x).fabPri = d.fabPri := rfl
@[simp] theorem setDrill_scrub (d : Dev) (n : Nat) (x : Drill) : (d.setDrill n x).scrub = d.scrub := rfl
@[simp] theorem setDrill_alm (d : Dev) (n : Nat) (x : Drill) : (d.setDrill n x).alm = d.alm := rfl
@[simp] theorem setDrill_doms (d : Dev) (n : Nat) (x : Drill) : (d.setDrill n x).doms = d.doms := rfl
@[simp] theorem setDrill_hl (d : Dev) (n : Nat) (x : Drill) : (d.setDrill n x).hl = d.hl := rfl
@[simp] theorem setDrill_engines (d : Dev) (n : Nat) (x : Drill) : (d.setDrill n x).engines = d.engines := rfl
@[simp] theorem setDrill_drills (d : Dev) (n : Nat) (x : Drill) : (d.setDrill n x).drills = d.drills.put n x := rfl
@[simp] theorem setDrill_ports (d : Dev) (n : Nat) (x : Drill) : (d.setDrill n x).ports = d.ports := rfl
@[simp] theorem setDrill_furrows (d : Dev) (n : Nat) (x : Drill) : (d.setDrill n x).furrows = d.furrows := rfl
@[simp] theorem setDrill_pengs (d : Dev) (n : Nat) (x : Drill) : (d.setDrill n x).pengs = d.pengs := rfl
@[simp] theorem setDrill_partners (d : Dev) (n : Nat) (x : Drill) : (d.setDrill n x).partners = d.partners := rfl
@[simp] theorem setDrill_bonds (d : Dev) (n : Nat) (x : Drill) : (d.setDrill n x).bonds = d.bonds := rfl
@[simp] theorem setDrill_cvus (d : Dev) (n : Nat) (x : Drill) : (d.setDrill n x).cvus = d.cvus := rfl
@[simp] theorem setDrill_dbg (d : Dev) (n : Nat) (x : Drill) : (d.setDrill n x).dbg = d.dbg := rfl
@[simp] theorem setDrill_glast (d : Dev) (n : Nat) (x : Drill) : (d.setDrill n x).glast = d.glast := rfl
@[simp] theorem setDrill_dict (d : Dev) (n : Nat) (x : Drill) : (d.setDrill n x).dict = d.dict := rfl
@[simp] theorem setDrill_pcie (d : Dev) (n : Nat) (x : Drill) : (d.setDrill n x).pcie = d.pcie := rfl
@[simp] theorem setDrill_objs (d : Dev) (n : Nat) (x : Drill) : (d.setDrill n x).objs = d.objs := rfl
@[simp] theorem setDrill_octs (d : Dev) (n : Nat) (x : Drill) : (d.setDrill n x).octs = d.octs := rfl
@[simp] theorem setDrill_out (d : Dev) (n : Nat) (x : Drill) : (d.setDrill n x).out = d.out := rfl

@[simp] theorem emit_fc (d : Dev) (o : Out) : (d.emit o).fc = d.fc := rfl
@[simp] theorem emit_freeCtr (d : Dev) (o : Out) : (d.emit o).freeCtr = d.freeCtr := rfl
@[simp] theorem emit_mem (d : Dev) (o : Out) : (d.emit o).mem = d.mem := rfl
@[simp] theorem emit_threads (d : Dev) (o : Out) : (d.emit o).threads = d.threads := rfl
@[simp] theorem emit_tillers (d : Dev) (o : Out) : (d.emit o).tillers = d.tillers := rfl
@[simp] theorem emit_seeds (d : Dev) (o : Out) : (d.emit o).seeds = d.seeds := rfl
@[simp] theorem emit_evc (d : Dev) (o : Out) : (d.emit o).evc = d.evc := rfl
@[simp] theorem emit_atoms (d : Dev) (o : Out) : (d.emit o).atoms = d.atoms := rfl
@[simp] theorem emit_stlb (d : Dev) (o : Out) : (d.emit o).stlb = d.stlb := rfl
@[simp] theorem emit_walkQ (d : Dev) (o : Out) : (d.emit o).walkQ = d.walkQ := rfl
@[simp] theorem emit_xiLow (d : Dev) (o : Out) : (d.emit o).xiLow = d.xiLow := rfl
@[simp] theorem emit_fabPri (d : Dev) (o : Out) : (d.emit o).fabPri = d.fabPri := rfl
@[simp] theorem emit_scrub (d : Dev) (o : Out) : (d.emit o).scrub = d.scrub := rfl
@[simp] theorem emit_alm (d : Dev) (o : Out) : (d.emit o).alm = d.alm := rfl
@[simp] theorem emit_doms (d : Dev) (o : Out) : (d.emit o).doms = d.doms := rfl
@[simp] theorem emit_hl (d : Dev) (o : Out) : (d.emit o).hl = d.hl := rfl
@[simp] theorem emit_engines (d : Dev) (o : Out) : (d.emit o).engines = d.engines := rfl
@[simp] theorem emit_drills (d : Dev) (o : Out) : (d.emit o).drills = d.drills := rfl
@[simp] theorem emit_ports (d : Dev) (o : Out) : (d.emit o).ports = d.ports := rfl
@[simp] theorem emit_furrows (d : Dev) (o : Out) : (d.emit o).furrows = d.furrows := rfl
@[simp] theorem emit_pengs (d : Dev) (o : Out) : (d.emit o).pengs = d.pengs := rfl
@[simp] theorem emit_partners (d : Dev) (o : Out) : (d.emit o).partners = d.partners := rfl
@[simp] theorem emit_bonds (d : Dev) (o : Out) : (d.emit o).bonds = d.bonds := rfl
@[simp] theorem emit_cvus (d : Dev) (o : Out) : (d.emit o).cvus = d.cvus := rfl
@[simp] theorem emit_dbg (d : Dev) (o : Out) : (d.emit o).dbg = d.dbg := rfl
@[simp] theorem emit_glast (d : Dev) (o : Out) : (d.emit o).glast = d.glast := rfl
@[simp] theorem emit_dict (d : Dev) (o : Out) : (d.emit o).dict = d.dict := rfl
@[simp] theorem emit_pcie (d : Dev) (o : Out) : (d.emit o).pcie = d.pcie := rfl
@[simp] theorem emit_objs (d : Dev) (o : Out) : (d.emit o).objs = d.objs := rfl
@[simp] theorem emit_octs (d : Dev) (o : Out) : (d.emit o).octs = d.octs := rfl
@[simp] theorem emit_out (d : Dev) (o : Out) : (d.emit o).out = o :: d.out := rfl

/-! Reading after writing. -/

@[simp] theorem thread_setThread_self (d : Dev) (t k : Nat) (x : Thread) : (d.setThread t k x).thread t k = x := by
  simp [thread]

theorem thread_setThread_of_ne (d : Dev) {t k t' k' : Nat} (x : Thread) (h : 4 * t' + k' ≠ 4 * t + k) :
    (d.setThread t k x).thread t' k' = d.thread t' k' := by
  simp only [thread, setThread]; exact SMap.get_put_of_ne _ _ _ h

@[simp] theorem thread_modThread_self (d : Dev) (t k : Nat) (f : Thread → Thread) :
    (d.modThread t k f).thread t k = f (d.thread t k) := by
  simp [modThread]

@[simp] theorem tiller_setTiller_self (d : Dev) (t : Nat) (x : Tiller) : (d.setTiller t x).tiller t = x := by
  simp [tiller]

theorem tiller_setTiller_of_ne (d : Dev) {t u : Nat} (x : Tiller) (h : u ≠ t) :
    (d.setTiller t x).tiller u = d.tiller u := by
  simp only [tiller, setTiller]; exact SMap.get_put_of_ne _ _ _ h

@[simp] theorem dom_setDom_self (d : Dev) (n : Nat) (x : Domain) : (d.setDom n x).dom n = x := by
  simp [dom]

theorem dom_setDom_of_ne (d : Dev) {n m : Nat} (x : Domain) (h : m ≠ n) : (d.setDom n x).dom m = d.dom m := by
  simp only [dom, setDom]; exact SMap.get_put_of_ne _ _ _ h

@[simp] theorem src_setSrc_self (d : Dev) (n : Nat) (x : EvSrc) : (d.setSrc n x).src n = x := by
  simp [src]

theorem src_setSrc_of_ne (d : Dev) {n m : Nat} (x : EvSrc) (h : m ≠ n) : (d.setSrc n x).src m = d.src m := by
  simp only [src, setSrc]; exact SMap.get_put_of_ne _ _ _ h

theorem find_put_self {α : Type} (m : SMap α) (k : Nat) (v : α) : SMap.find (SMap.put m k v) k = some v := by
  induction m with
  | nil => simp [SMap.put, SMap.find]
  | cons p m ih =>
    obtain ⟨j, w⟩ := p
    unfold SMap.put
    split
    · simp [SMap.find]
    · split
      · simp [SMap.find]
      · have hj : (j == k) = false := by simp only [beq_eq_false_iff_ne]; omega
        simp only [SMap.find, List.find?, hj] at ih ⊢
        exact ih

theorem find_put_of_ne {α : Type} (m : SMap α) {i k : Nat} (v : α) (h : i ≠ k) :
    SMap.find (SMap.put m k v) i = SMap.find m i := by
  have hk : (k == i) = false := by simp only [beq_eq_false_iff_ne]; omega
  induction m with
  | nil => simp [SMap.put, SMap.find, hk]
  | cons p m ih =>
    obtain ⟨j, w⟩ := p
    unfold SMap.put
    split
    · subst_vars; simp [SMap.find, hk]
    · split
      · simp [SMap.find, hk]
      · by_cases hj : (j == i) = true
        · simp [SMap.find, List.find?, hj]
        · simp only [Bool.not_eq_true] at hj
          simp only [SMap.find, List.find?, hj] at ih ⊢
          exact ih

@[simp] theorem obj_setObj_self (d : Dev) (i n v : Nat) : (d.setObj i n v).obj i n = v := by
  simp [obj, find_put_self]

theorem obj_setObj_of_ne (d : Dev) {i n j m : Nat} (v : Nat) (h : j * 256 + m ≠ i * 256 + n) :
    (d.setObj i n v).obj j m = d.obj j m := by
  simp only [obj, setObj, find_put_of_ne _ _ h]

end Sys2Proof.Machine.Dev
end

