-- ==== Sys2Proof/Laws/Freeze.lean ====
section
/-! SUPPORT. When the settling of a freeze after a command changes nothing. -/

namespace Sys2Proof.Machine.Dev

/-- Nothing is settled where what makes a freeze stays: the halted threads, DBG_FORCE, DF_BLK, debug being open. -/
theorem settleFreeze_of_same (d e : Dev) (h₁ : e.inForce = true → d.inForce = true) (h₂ : e.dbg.blk = d.dbg.blk) :
    d.settleFreeze e = e := by
  unfold settleFreeze
  cases he : e.inForce
  · simp
  · simp [h₁ he, h₂]

/-- A freeze is in force in `e` exactly where it is in `d`, if the four things it rests on are the same. -/
theorem inForce_congr (d e : Dev) (h₁ : e.hl.dbgOff = d.hl.dbgOff) (h₂ : e.obj 0x9010 0 = d.obj 0x9010 0)
    (h₃ : e.dbg.force = d.dbg.force) (h₄ : e.threads.any (fun p => p.2.halted) = d.threads.any (fun p => p.2.halted)) :
    e.inForce = d.inForce := by
  simp only [inForce, debugClosed, h₁, h₂, h₃, h₄]

end Sys2Proof.Machine.Dev

namespace Sys2Proof.Machine

/-- A write of a thread over one that is halted where it is leaves whether some thread is halted. -/
theorem any_halted_put (m : SMap Thread) (i : Nat) (x : Thread) (hx : x.halted = (m.get {} i).halted) :
    (m.put i x).any (fun p => p.2.halted) = m.any (fun p => p.2.halted) := by
  induction m with
  | nil => simp_all [SMap.put, SMap.get, Thread.halted]
  | cons p m ih =>
    obtain ⟨j, w⟩ := p
    unfold SMap.put
    split
    · subst_vars; simp_all [SMap.get]
    · split
      · simp_all [SMap.get, Thread.halted]
      · simp_all [SMap.get]

namespace Dev

@[simp] theorem settleFreeze_self (d : Dev) : d.settleFreeze d = d := settleFreeze_of_same d d id rfl

/-- A command that leaves threads, debug block, straps and objects alone settles nothing. -/
theorem settleFreeze_quiet (d e : Dev) (h₁ : e.threads = d.threads) (h₂ : e.dbg = d.dbg) (h₃ : e.hl.dbgOff = d.hl.dbgOff)
    (h₄ : e.obj 0x9010 0 = d.obj 0x9010 0) : d.settleFreeze e = e := by
  refine settleFreeze_of_same d e ?_ (by rw [h₂])
  rw [inForce_congr d e h₃ h₄ (by rw [h₂]) (by rw [h₁])]; exact id

/-- A command that changes one thread, which is not halted before or after, settles nothing. -/
theorem settleFreeze_thread (d e : Dev) (t k : Nat) (x : Thread) (h₁ : e.threads = d.threads.put (4 * t + k) x)
    (hx : x.halted = (d.thread t k).halted) (h₂ : e.dbg = d.dbg) (h₃ : e.hl = d.hl) (h₄ : e.objs = d.objs) :
    d.settleFreeze e = e := by
  refine settleFreeze_of_same d e ?_ (by rw [h₂])
  rw [inForce_congr d e (by rw [h₃]) (by simp only [obj, h₄]) (by rw [h₂])]
  · exact id
  · rw [h₁]; exact any_halted_put _ _ _ hx

/-- An update of one thread that leaves whether it is halted leaves whether a freeze is in force. -/
theorem inForce_modThread (d : Dev) (t k : Nat) (f : Thread → Thread) (h : (f (d.thread t k)).halted = (d.thread t k).halted) :
    (d.modThread t k f).inForce = d.inForce := by
  refine inForce_congr _ _ rfl rfl rfl ?_
  rw [modThread_threads]; exact any_halted_put _ _ _ h

theorem inForce_setThread (d : Dev) (t k : Nat) (x : Thread) (h : x.halted = (d.thread t k).halted) :
    (d.setThread t k x).inForce = d.inForce := inForce_modThread d t k (fun _ => x) h

end Dev
end Sys2Proof.Machine
end

