-- ==== Sys2Proof/Laws/Issue.lean ====
section
/-! SUPPORT. What an instruction command does: the issue of a word of a thread that can issue. -/

namespace Sys2Proof.Machine

/-- An instruction command is the issue of its word. -/
theorem exec_cmd (op : SeqOp) (t : Fin 96) (k : Fin 4) (s : State) :
    exec (op.cmd t k) s = s.act (fun d => d.seqStep t k op) := by
  cases op <;> rfl

/-- Whether the instruction may follow EXT words (R177). -/
def SeqOp.joins : SeqOp → Bool
  | .ext _ => true
  | op => op.takesExt

namespace Dev

/-- The threads after a word is taken. -/
theorem issued_thread (d : Dev) (t k : Nat) : (d.issued t k).thread t k =
    { d.thread t k with
      ipc := if (d.thread t k).ext.isEmpty then (d.thread t k).pc else (d.thread t k).ipc
      pc := (d.thread t k).pc + 1, pf := d.refill t k (d.thread t k).pc, ext := [], park := .none, pmFirst := (d.thread t k).pmMarked false
      dbg := { (d.thread t k).dbg with passBp := false } } := by
  simp [issued]

/-- Where no halt waits, none takes effect. -/
theorem settle_of_noHalt (d : Dev) (t k : Nat) (h : (d.thread t k).dbg.haltReq = 0) : d.settle t k = d := by
  simp [settle, h]

/-- A thread that is not READY settles no halt. -/
theorem settle_of_notReady (d : Dev) (t k : Nat) (h : (d.thread t k).st ≠ .ready) : d.settle t k = d := by
  simp [settle, h]

/-- The issue of a word by a thread that can issue. -/
theorem issue_of_canIssue {d : Dev} {t : Fin 96} {k : Fin 4} (h : CanIssue d t k) (takes : Bool)
    (body : Dev → List (BitVec 10) → Dev) :
    d.issue t k takes body =
      (if !(d.thread t k).ext.isEmpty && !takes then (d.issued t k).illegal t k
       else body (d.issued t k) (d.thread t k).ext).settle t k := by
  have hb : (d.bpHit t k (d.thread t k).pc && !(d.thread t k).dbg.passBp) = false := by
    rcases h.noBreak with h | h <;> simp [h]
  simp [issue, h.ready, h.on, hb, h.parity]

/-- A thread that is not READY, or whose tiller is not ON, issues nothing. -/
theorem issue_of_not {d : Dev} {t k : Nat} (h : (d.thread t k).st ≠ .ready ∨ d.tillerOn t = false) (takes : Bool)
    (body : Dev → List (BitVec 10) → Dev) : d.issue t k takes body = d := by
  unfold issue; rcases h with h | h <;> simp [h]

/-- An instruction whose effect is on its thread alone, and leaves it with no halt to settle. -/
theorem settle_issuedThen (d : Dev) (t k : Nat) (f : Thread → Thread)
    (hf : (f ((d.issued t k).thread t k)).dbg.haltReq = (d.thread t k).dbg.haltReq) (h : (d.thread t k).dbg.haltReq = 0) :
    (d.issuedThen t k f).settle t k = d.issuedThen t k f := by
  apply settle_of_noHalt; simp [issuedThen, hf, h]

/-- Taking a word leaves whether a freeze is in force. -/
@[simp] theorem inForce_issued (d : Dev) (t k : Nat) : (d.issued t k).inForce = d.inForce :=
  inForce_modThread d t k _ rfl

/-- The thread of `issuedThen`. -/
@[simp] theorem issuedThen_thread (d : Dev) (t k : Nat) (f : Thread → Thread) :
    (d.issuedThen t k f).thread t k = f ((d.issued t k).thread t k) := by simp [issuedThen]

@[simp] theorem issued_halted (d : Dev) (t k : Nat) : ((d.issued t k).thread t k).halted = (d.thread t k).halted := by
  rw [issued_thread]; rfl

/-- An instruction that neither halts its thread nor ends a halt settles nothing. -/
theorem settleFreeze_issuedThen (d : Dev) (t k : Nat) (f : Thread → Thread)
    (hf : (f ((d.issued t k).thread t k)).halted = (d.thread t k).halted) :
    d.settleFreeze (d.issuedThen t k f) = d.issuedThen t k f := by
  refine settleFreeze_of_same _ _ ?_ rfl
  rw [issuedThen, inForce_modThread _ _ _ _ (by rw [hf, issued_halted]), inForce_issued]; exact id

theorem issueOp_eq (d : Dev) (t k : Nat) (op : SeqOp) :
    d.issueOp t k op = d.issue t k op.joins (fun d ext => d.runOp t k ext op) := by
  cases op <;> rfl

/-- The issue of `op` by a thread that can issue, where no EXT word stands before an instruction that takes none. -/
theorem issueOp_of_canIssue {d : Dev} {t : Fin 96} {k : Fin 4} {op : SeqOp} (h : CanIssue d t k)
    (he : (d.thread t k).ext = [] ∨ op.joins = true) :
    d.issueOp t k op = ((d.issued t k).runOp t k (d.thread t k).ext op).settle t k := by
  rw [issueOp_eq, issue_of_canIssue h, if_neg]
  rcases he with he | he <;> simp [he]

/-- What an instruction gives whose body is `f` on its thread: the whole next state. -/
theorem gives_of_body {s : State} {t : Fin 96} {k : Fin 4} {op : SeqOp} (c : Instr) (f : Thread → Thread)
    (h : CanIssue s.dev t k) (hc : exec c s = s.act (fun d => d.issueOp t k op))
    (he : (s.dev.thread t k).ext = [] ∨ op.joins = true)
    (hb : (s.dev.issued t k).runOp t k (s.dev.thread t k).ext op = s.dev.issuedThen t k f)
    (hr : (f ((s.dev.issued t k).thread t k)).dbg.haltReq = (s.dev.thread t k).dbg.haltReq)
    (hh : (f ((s.dev.issued t k).thread t k)).halted = (s.dev.thread t k).halted) :
    Gives c s (s.dev.issuedThen t k f) := by
  rw [Gives, hc, State.act, issueOp_of_canIssue h he, hb, settle_issuedThen _ _ _ _ hr h.noHalt,
    settleFreeze_issuedThen _ _ _ _ hh]

end Dev
end Sys2Proof.Machine
end

