-- ==== Sys2Proof/Laws/Mem.lean ====
section
/-! SUPPORT. Memory: reading after writing, and the canonical form, which every memory operation keeps. -/

namespace Sys2Proof.Machine.Mem

theorem sorted_iff {α : Type} (l : SMap α) : sorted l = true ↔ SMap.Sorted l := by
  induction l with
  | nil => simp [sorted, SMap.Sorted]
  | cons p l ih =>
    cases l with
    | nil => simp [sorted, SMap.Sorted]
    | cons q l =>
      have : sorted (p :: q :: l) = (decide (p.1 < q.1) && sorted (q :: l)) := rfl
      rw [this, Bool.and_eq_true, ih, decide_eq_true_eq]
      constructor
      · rintro ⟨h, hs⟩
        refine List.pairwise_cons.2 ⟨fun x hx => ?_, hs⟩
        rcases List.mem_cons.1 hx with rfl | hx
        · exact h
        · exact Nat.lt_trans h ((List.pairwise_cons.1 hs).1 x hx)
      · intro h
        have := List.pairwise_cons.1 h
        exact ⟨this.1 q (by simp), this.2⟩

theorem wf_iff (m : Mem) :
    m.wf = true ↔ (SMap.Sorted m.cells ∧ ∀ p ∈ m.cells, p.2 ≠ unlisted) ∧ SMap.Sorted m.synd := by
  simp [wf, sorted_iff, List.all_eq_true, bne_iff_ne]

/-- The empty memory has the canonical form. -/
theorem wf_empty : Mem.wf {} = true := by decide

theorem wf_congr (m n : Mem) (h : m.cells = n.cells) (k : m.synd = n.synd) : m.wf = n.wf := by simp [wf, h, k]

theorem poke_synd (m : Mem) (c : Nat) (b : W8) : (m.poke c b).synd = m.synd := by unfold poke; split <;> rfl

theorem wf_poke (m : Mem) (c : Nat) (b : W8) (h : m.wf = true) : (m.poke c b).wf = true := by
  rw [wf_iff] at h ⊢
  refine ⟨?_, by rw [poke_synd]; exact h.2⟩
  unfold poke
  split
  · exact ⟨SMap.sorted_filter _ _ h.1.1, fun p hp => h.1.2 p (List.mem_of_mem_filter hp)⟩
  · refine ⟨SMap.sorted_put _ _ _ h.1.1, fun p hp => ?_⟩
    rcases SMap.mem_put _ _ _ _ hp with rfl | hp
    · assumption
    · exact h.1.2 p hp

/-- Dropping syndromes keeps the canonical form. -/
theorem wf_synd (m n : Mem) (f : Nat × W8 → Bool) (h : m.wf = true) (hc : n.cells = m.cells)
    (hs : n.synd = m.synd.filter f) : n.wf = true := by
  rw [wf_iff] at h ⊢
  rw [hc, hs]
  exact ⟨h.1, SMap.sorted_filter _ _ h.2⟩

theorem get_del_self (m : SMap W8) (c : Nat) (z : W8) (h : SMap.Sorted m) : SMap.get z (SMap.del m c) c = z := by
  induction m with
  | nil => rfl
  | cons p m ih =>
    obtain ⟨j, w⟩ := p
    have h' := List.pairwise_cons.1 h
    by_cases hj : j = c
    · subst hj
      simp only [SMap.del, List.filter, bne_self_eq_false]
      exact ih h'.2
    · have : (j != c) = true := by simp [hj]
      simp only [SMap.del, List.filter, this, SMap.get]
      have hc : c ≠ j := fun e => hj e.symm
      simp only [hc, if_false]
      split
      · rfl
      · exact ih h'.2

theorem get_del_of_ne (m : SMap W8) {c i : Nat} (z : W8) (hi : i ≠ c) (h : SMap.Sorted m) :
    SMap.get z (SMap.del m c) i = SMap.get z m i := by
  induction m with
  | nil => rfl
  | cons p m ih =>
    obtain ⟨j, w⟩ := p
    have h' := List.pairwise_cons.1 h
    by_cases hj : j = c
    · subst hj
      simp only [SMap.del, List.filter, bne_self_eq_false, SMap.get, hi, if_false]
      rw [show SMap.get z (List.filter (fun p => p.1 != j) m) i = SMap.get z m i from ih h'.2]
      split
      · cases m with
        | nil => rfl
        | cons q m =>
          have := h'.1 q (by simp)
          have h1 : i ≠ q.1 := by simp only at this; omega
          have h2 : i < q.1 := by simp only at this; omega
          simp [SMap.get, h1, h2]
      · rfl
    · have : (j != c) = true := by simp [hj]
      simp only [SMap.del, List.filter, this, SMap.get]
      rw [show SMap.get z (List.filter (fun p => p.1 != c) m) i = SMap.get z m i from ih h'.2]

/-- A byte written is the byte that a read gives. -/
theorem raw_poke_self (m : Mem) (c : Nat) (b : W8) (h : m.wf = true) : (m.poke c b).raw c = b := by
  rw [wf_iff] at h
  unfold poke raw
  split
  · subst_vars; exact get_del_self _ _ _ h.1.1
  · simp

/-- A write of one cell leaves every other cell alone. -/
theorem raw_poke_of_ne (m : Mem) {c i : Nat} (b : W8) (hi : i ≠ c) (h : m.wf = true) : (m.poke c b).raw i = m.raw i := by
  rw [wf_iff] at h
  unfold poke raw
  split
  · exact get_del_of_ne _ _ hi h.1.1
  · exact SMap.get_put_of_ne _ _ _ hi

theorem wf_foldl_poke (ps : List (Nat × W8)) (m : Mem) (h : m.wf = true) :
    (ps.foldl (fun m p => m.poke p.1 p.2) m).wf = true := by
  induction ps generalizing m with
  | nil => exact h
  | cons p ps ih => exact ih _ (wf_poke _ _ _ h)

theorem wf_scrubGranule (m : Mem) (g : Nat) (h : m.wf = true) : (m.scrubGranule g).wf = true := by
  unfold scrubGranule
  split
  · exact wf_synd _ _ (fun p => p.1 != g) (wf_poke _ _ _ h) rfl (by rw [poke_synd]; rfl)
  · exact wf_synd _ _ (fun p => p.1 != g) h rfl rfl
  · exact h

theorem wf_writeGranule (m : Mem) (g : Nat) (ps : List (Nat × W8)) (h : m.wf = true) : (m.writeGranule g ps).1.wf = true := by
  unfold writeGranule
  simp only
  split
  all_goals
    split
    · exact h
    · apply wf_foldl_poke
      simp only [Bool.false_eq_true, if_true, if_false]
      first
        | exact wf_synd _ _ (fun p => p.1 != g) h rfl rfl
        | exact wf_scrubGranule _ _ h

/-- A write of any cells keeps the canonical form. -/
theorem wf_write (m : Mem) (ps : List (Nat × W8)) (h : m.wf = true) : (m.write ps).1.wf = true := by
  unfold write
  generalize (ps.map (fun p => p.1 / 8)).eraseDups = gs
  suffices ∀ (acc : Mem × List Nat), acc.1.wf = true → (gs.foldl (fun (acc : Mem × List Nat) g =>
      let mine := ps.filter (fun p => p.1 / 8 == g)
      let (m', ok) := acc.1.writeGranule g mine
      (m', if ok then acc.2 else acc.2 ++ mine.map (·.1))) acc).1.wf = true from this _ h
  induction gs with
  | nil => exact fun acc h => h
  | cons g gs ih => exact fun acc h => ih _ (wf_writeGranule _ _ _ h)

/-- The stored check byte XOR the recomputed one is the syndrome (R296). -/
theorem storedCheck_xor (m : Mem) (c : Nat) : m.storedCheck c ^^^ m.freshCheck c = SMap.get (0 : W8) m.synd (c / 8) := by
  unfold storedCheck
  rw [BitVec.xor_comm, ← BitVec.xor_assoc, BitVec.xor_self, BitVec.zero_xor]

theorem wf_clearWhere (m : Mem) (p : Nat → Bool) (h : m.wf = true) : (m.clearWhere p).wf = true := by
  rw [wf_iff] at h ⊢
  exact ⟨⟨SMap.sorted_filter _ _ h.1.1, fun q hq => h.1.2 q (List.mem_of_mem_filter hq)⟩, SMap.sorted_filter _ _ h.2⟩

end Sys2Proof.Machine.Mem

namespace Sys2Proof.Machine.Dev

/-- Counting a corrected granule changes no memory. -/
theorem countSingle_mem (d : Dev) (g : Nat) : (d.countSingle g).mem = d.mem := by
  unfold countSingle
  simp only
  repeat' split
  all_goals rfl

theorem queueFix_cells (d : Dev) (g : Nat) : (d.queueFix g).mem.cells = d.mem.cells := by
  unfold queueFix; split <;> rfl

theorem queueFix_synd (d : Dev) (g : Nat) : (d.queueFix g).mem.synd = d.mem.synd := by
  unfold queueFix; split <;> rfl

/-- `noteSingles` changes counters and what waits to be written back, never a cell. -/
theorem noteSingles_cells (d : Dev) (o : Orig) (gs : List Nat) : (d.noteSingles o gs).mem.cells = d.mem.cells := by
  unfold noteSingles
  induction gs generalizing d with
  | nil => rfl
  | cons g gs ih => rw [List.foldl_cons, ih, queueFix_cells]; split <;> simp only [countSingle_mem]

theorem noteSingles_synd (d : Dev) (o : Orig) (gs : List Nat) : (d.noteSingles o gs).mem.synd = d.mem.synd := by
  unfold noteSingles
  induction gs generalizing d with
  | nil => rfl
  | cons g gs ih => rw [List.foldl_cons, ih, queueFix_synd]; split <;> simp only [countSingle_mem]

theorem noteSingles_wf (d : Dev) (o : Orig) (gs : List Nat) : (d.noteSingles o gs).mem.wf = d.mem.wf :=
  Mem.wf_congr _ _ (noteSingles_cells ..) (noteSingles_synd ..)

/-- Recording an uncorrectable granule changes no memory. -/
theorem noteUncorr_mem (d : Dev) (pa kind orig : Nat) : (d.noteUncorr pa kind orig).mem = d.mem := by
  unfold noteUncorr
  have ho : ∀ (d : Dev) n, (d.occur n).mem = d.mem := by
    intro d n; unfold occur; split <;> simp only [setSrc]
  cases granQuadrant pa <;> cases loamStack pa <;> simp [setObj, setOct, ho, bump, bumpBy]

theorem memWrite_wf (d : Dev) (pa : Nat) (bs : List W8) (h : d.mem.wf = true) : (d.memWrite pa bs).1.mem.wf = true := by
  unfold memWrite
  cases cellsOf pa bs.length with
  | none => exact h
  | some cs => exact Mem.wf_write _ _ h

theorem memRead_wf (d : Dev) (o : Orig) (tport pa n : Nat) (h : d.mem.wf = true) :
    (d.memRead o tport pa n).1.mem.wf = true := by
  unfold memRead
  cases cellsOf pa n with
  | none => exact h
  | some cs =>
    simp only
    cases d.mem.firstBad cs with
    | none => simp only [noteSingles_wf]; exact h
    | some c => simp only [noteUncorr_mem, noteSingles_wf]; exact h

theorem lsWrite_wf (d : Dev) (t a : Nat) (bs : List W8) (h : d.mem.wf = true) : (d.lsWrite t a bs).1.mem.wf = true := by
  unfold lsWrite
  simp only
  split
  · exact Mem.wf_write _ _ h
  · split <;> exact h

theorem lsRead_wf (d : Dev) (t a n : Nat) (h : d.mem.wf = true) : (d.lsRead t a n).1.mem.wf = true := by
  unfold lsRead
  simp only
  split
  · exact h
  · have : ∀ (gs : List Nat) (m : Mem), m.wf = true → (gs.foldl Mem.scrubGranule m).wf = true := by
      intro gs
      induction gs with
      | nil => exact fun m h => h
      | cons g gs ih => exact fun m h => ih _ (Mem.wf_scrubGranule _ _ h)
    exact this _ _ h

theorem pmWrite_wf (d : Dev) (t w : Nat) (x : BitVec 14) (h : d.mem.wf = true) : (d.pmWrite t w x).mem.wf = true :=
  Mem.wf_poke _ _ _ (Mem.wf_poke _ _ _ h)

end Sys2Proof.Machine.Dev
end

