-- ==== Sys2Proof/Tests/Slice0.lean ====
section
/-! SUPPORT. Tests: ill-formed commands that the check refuses, words of worked programs, small facts from the
specification's examples, and for each statement with hypotheses a state and operands that meet them. -/

namespace Sys2Proof.Tests

open Sys2Proof.Machine

-- One theorem after the other: each waits for the kernel to check what stands before it.
set_option Elab.async false

/-- Every domain ON. -/
def onDoms : SMap Domain := (List.range 76).map (fun i => (i, ({ st := .on } : Domain)))

/-- A device in RUN with every domain ON, the PCIe link up and DBG_ACC selected. -/
def up : Dev :=
  { doms := onDoms, hl := { dev := .run }, pcie := { up := true, busMaster := true }, dbg := { tlr := false, ir := 0x10 } }

/-- The same device with thread 0 of tiller 0 as given. -/
def withThread (x : Thread) : Dev := { up with threads := [(0, x)] }

/-! Ill-formed commands, one for each check of WellFormed. -/

/-- Control fields of zeros. -/
def ctl0 : Ctl := ⟨0, 0, 0⟩

theorem ill_frames : (Instr.frameClassify 0 (List.replicate 13 0) true none true).wf = false ∧
    (Instr.frameClassify 0 (List.replicate 14 0) true (some ⟨List.replicate 7 0, 0, 0⟩) true).wf = false ∧
    (Instr.frameClassify 0 (List.replicate 14 0) true (some ⟨List.replicate 8 0, 4, 0⟩) true).wf = false ∧
    (Instr.frameClassify 0 (List.replicate 14 0) true (some ⟨List.replicate 8 0, 3, 2 ^ 32⟩) true).wf = false ∧
    (Instr.frameClassify 0 (List.replicate 14 0) true (some ⟨List.replicate 8 0, 3, 1⟩) true).wf = true ∧
    (Instr.pfcFrame 0 0 (List.replicate 7 0)).wf = false ∧ (Instr.lldpReceive 0 []).wf = false ∧
    (Instr.pelzFrame none [] true).wf = false := by decide +kernel

theorem ill_hedgerow : (Instr.hedgerowRead 0 1 4096 0 1 ctl0).wf = false ∧ (Instr.hedgerowRead 0 1 0 255 2 ctl0).wf = false ∧
    (Instr.hedgerowRead 0 1 0 0 0 ctl0).wf = false ∧ (Instr.hedgerowRead 0 1 4095 0 256 ctl0).wf = true ∧
    (Instr.hedgerowWrite 0 1 1 (List.replicate 256 0) ctl0).wf = false ∧ (Instr.rdata 0 1 0 16 [] ctl0).wf = false ∧
    (Instr.rdata 0 1 0 0 (List.replicate 257 0) ctl0).wf = false ∧ (Instr.werr 0 1 0 ⟨4096, 0, 0⟩).wf = false ∧
    (Instr.nak 0 ⟨0, 256, 0⟩).wf = false ∧ (Instr.idle 0 ⟨0, 0, 256⟩).wf = false := by decide +kernel

theorem ill_pcie : (Instr.pcieInboundWrite true 0 ⟨[], .none⟩).wf = false ∧ (Instr.pcieInboundRead true 0 0).wf = false ∧
    (Instr.pcieInboundRead true 0 4097).wf = false ∧ (Instr.pcieAtomicop 0 12 0 0 0).wf = false := by decide +kernel

theorem ill_pelz : (Instr.keyWrite 0 1 0 (.key [])).wf = false ∧ (Instr.resourceClaim 0 1 (.ball 0) 0).wf = false ∧
    (Instr.thermalSample []).wf = false := by decide +kernel

theorem ill_lengths : (Instr.write 0 1 0 0 none true 0 (List.replicate 1025 0)).wf = false ∧
    (Instr.writev 0 1 (List.replicate 1025 0)).wf = false ∧ (Instr.accessBlockWrite 0 1 true 0 (List.replicate 1025 0)).wf = false ∧
    (Instr.pcieCompletion 0 .success (List.replicate 4097 0)).wf = false := by decide +kernel

/-! Sequencer instructions. -/

/-- A READY thread at J with some registers set. -/
def th : Thread :=
  { st := .ready, pc := 5, ipc := 3, c := true
    g := [(1, 0xFFFFFFFF), (2, 1), (3, 0x80000000), (4, 3), (5, 33), (8, 0x80000000), (9, 7)] }
/-- The same thread after an EXT word, and at S. -/
def thExt : Thread := { th with ext := [0x3FF] }
def thS : Thread := { th with priv := true }
/-- Their states. -/
def sTh : State := ⟨withThread th, []⟩
def sExt : State := ⟨withThread thExt, []⟩
def sS : State := ⟨withThread thS, []⟩

theorem th_canIssue : CanIssue sTh.dev 0 0 := ⟨by decide, by decide, .inl (by decide), by decide, by decide, by decide⟩
theorem thExt_canIssue : CanIssue sExt.dev 0 0 := ⟨by decide, by decide, .inl (by decide), by decide, by decide, by decide⟩
theorem thS_canIssue : CanIssue sS.dev 0 0 := ⟨by decide, by decide, .inl (by decide), by decide, by decide, by decide⟩

/-- Premises of the statements about arithmetic, logic, shifts, products, branches. -/
theorem wit_arithmetic : CanIssue sTh.dev 0 0 ∧ NoExt sTh.dev 0 0 := ⟨th_canIssue, rfl⟩

/-- A count of zero, and one that is not. -/
theorem wit_shifts :
    (th.rd 0).toNat % 32 = 0 ∧ (th.rd 5).toNat % 32 = 1 := by decide +kernel

/-- A divisor of zero, the signed overflow, and neither. -/
theorem wit_division :
    th.rd 0 = 0 ∧ (th.rd 8 = 0x80000000 ∧ th.rd 1 = 0xFFFFFFFF) ∧ (th.rd 4 ≠ 0 ∧ th.rd 4 ≠ 0xFFFFFFFF) := by decide +kernel

/-- A condition that holds and one that does not; DBNZ with and without a branch; no EXT word. -/
theorem wit_branches :
    th.holds 2 = true ∧ th.holds 3 = false ∧ th.rd 16 ≠ 1 ∧ ({ th with g := [(16, 1)] } : Thread).rd 16 = 1 ∧ th.ext = [] ∧ thExt.ext.length < 3 := by decide +kernel

/-- An empty store buffer and one with an entry; a WAIT that ends at once and one that waits. -/
theorem wit_waits :
    th.sb = [] ∧ ({ th with sb := [⟨0, 1, 0, false, false, []⟩] } : Thread).sb ≠ [] ∧ sTh.dev.openChain 0 0 = none ∧
      sTh.dev.waitDone 0 0 ((th.rd 0).toNat % 65536) = true ∧ sTh.dev.waitDone 0 0 ((th.rd 1).toNat % 65536) = false := by decide +kernel

theorem wit_nothing :
    ((⟨withThread { th with st := .waiting }, []⟩ : State).dev.thread 0 0).st ≠ .ready ∧ ({} : Dev).tillerOn 0 = false := by decide +kernel

/-- LD and ST of the pair at offset 8, of a byte at the last offset, and an offset that is not aligned. -/
theorem wit_localLoad :
    sTh.dev.mem.wf = true ∧ 8 % 2 ^ 3 = 0 ∧ ((th.rd 1).toNat + (immOf th.ext 0 0).toNat) % 65536 = 65535 ∧
      (∀ i < 8, sTh.dev.lsByte 0 (8 + i) ≠ none) ∧
      [(0 : W8)].map some = (List.range (2 ^ 0)).map (fun i => sTh.dev.lsByte 0 (65535 + i)) := by decide +kernel

theorem wit_hoppers :
    sTh.dev.hopperHeld 0 1 = false ∧ ((th.rd 0).toNat + (immOf th.ext 0 0).toNat) % 65536 % 64 = 0 ∧
      (List.replicate 64 (0 : W8)).map some = (List.range 64).map (fun i => sTh.dev.lsByte 0 (0 + i)) ∧ thS.priv = true := by decide +kernel

/-- Both stages on, and one page at address 0 in the TLB of tiller 0. -/
def dTlb : Dev :=
  { withThread { th with xctx1 := 0x80000000 } with
    objs := [(0x6110 * 256 + 1, 1)]
    tillers := [(0, { utlb := [⟨0, 0, true, 0, 4096, 0x4000, true, true, true, true, true, true, 3, 3, 0⟩] })] }
def sTlb : State := ⟨dTlb, []⟩
theorem tlb_canIssue : CanIssue sTlb.dev 0 0 := ⟨by decide, by decide, .inl (by decide), by decide, by decide, by decide⟩

/-- A load, a store and a descriptor fetch whose address the TLB translates. -/
theorem wit_remote :
    ((dTlb.issued 0 0).lookup (Dev.tillerPath 0) ⟨.read, dTlb.ctxOf 0 0, 0⟩).2 = .pa 0x4000 ∧
      ((dTlb.issued 0 0).lookup (Dev.tillerPath 0) ⟨.write, dTlb.ctxOf 0 0, 0⟩).2 = .pa 0x4000 ∧
      ((dTlb.issued 0 0).lookup (Dev.tillerPath 0) ⟨.fetch, dTlb.ctxOf 0 0, 0⟩).2 = .pa 0x4000 ∧
      (((th.rdPair 3).toNat : Int) + (immOf th.ext 0 0).toInt = 0) ∧ th.sb.length < 16 ∧
      16 ≤ ({ th with sb := List.replicate 16 ⟨0, 1, 0, false, false, []⟩ } : Thread).sb.length ∧ dTlb.openChain 0 0 = none ∧
      (dTlb.slotsBusy 0 0).length < 8 := by decide +kernel

/-- CRC bytes: an even register with a count of zero, one above 65,536, and one byte. -/
theorem wit_check :
    th.ext = [] ∧ (th.rd 11).toNat = 0 ∧ 65536 < (th.rd 3).toNat ∧ (th.rd 9).toNat = 7 ∧
      (List.replicate 7 (0 : W8)).map some = (List.range 7).map (fun i => sTh.dev.lsByte 0 ((th.rd 8).toNat + i)) := by decide +kernel

theorem wit_special :
    (th.rd 2).toNat / 65536 % 4 = 0 ∧ ({ th with g := [(2, 0x10005)] } : Thread).rd 2 = 0x10005 ∧ th.seedctl.getLsbD 31 = false ∧ (th.rd 4).toNat % 4 = 3 ∧ (th.rd 2).toNat % 4 ≠ 3 ∧ (th.rd 2).toNat % 16 ∈ [0, 1, 2, 3, 4, 14, 15] ∧ th.priv = false ∧ thS.priv = true := by decide +kernel

/-- A handler table whose entries are all usable: a handler at word 0x123, at S, with a stack at 0x200. -/
def handlerWord : Nat := 0x200 * 2 ^ 32 + 2 ^ 23 + 2 ^ 22 + 2 ^ 20 + 0x123
def dHt (x : Thread) : Dev :=
  { withThread x with mem := { cells := (List.range 0x40).flatMap (fun v => [(lsCell 0 (16 * v), 0x23), (lsCell 0 (16 * v) + 1, 0x01),
      (lsCell 0 (16 * v) + 2, 0xD0), (lsCell 0 (16 * v) + 5, 0x02)]) } }

/-! Exceptions, returns, events, claims, parked instructions. -/

def dSvc : Dev := dHt { th with g := [(29, 9), (30, 0x108), (31, 0x99)], epc := 0x7, estat := 0x11223344 }
theorem svc_canIssue : CanIssue dSvc 0 0 :=
  ⟨by decide +kernel, by decide +kernel, .inl (by decide +kernel), by decide +kernel, by decide +kernel, by decide +kernel⟩
theorem svc_canEnter : dSvc.CanEnter 0 0 := ⟨by decide +kernel, by decide +kernel, by decide +kernel⟩
/-- Entered as far as it is decided. -/
def enteredB (d e : Dev) (t k vec info : Nat) (saved : BitVec 14) (w0 : Nat) : Bool :=
  (e.thread t k).epc == saved.setWidth 32 && (e.thread t k).estat == (d.thread t k).status &&
  (e.thread t k).ecause.toNat == vec * 2 ^ 26 + info && (e.thread t k).pc == BitVec.ofNat 14 w0 &&
  (e.thread t k).priv == bitN w0 20 && (e.thread t k).sua == bitN w0 25 && (e.thread t k).ct == bitN w0 24 &&
  (e.thread t k).depth == (d.thread t k).depth + 1 && bitN (e.thread t k).pstk (d.thread t k).depth == (d.thread t k).priv &&
  (e.thread t k).st == .ready && (e.thread t k).c == (d.thread t k).c && (e.thread t k).z == (d.thread t k).z &&
  (List.range 32).all (fun r => r == 30 || (e.thread t k).rd r == (d.thread t k).rd r) &&
  (e.thread t k).htbase == (d.thread t k).htbase && (e.thread t k).xctx1 == (d.thread t k).xctx1 &&
  (e.thread t k).evcfg == (d.thread t k).evcfg && (e.thread t k).fepc == (d.thread t k).fepc

/-- Every vector's handler may be used: SVC 0, ILLEGAL, PRIV. -/
theorem wit_exceptions :
    dSvc.HasHandler 0 0 0x20 handlerWord ∧ dSvc.HasHandler 0 0 0 handlerWord ∧ dSvc.HasHandler 0 0 1 handlerWord ∧
      (dHt th).HasHandler 0 0 2 handlerWord ∧ (dHt th).HasHandler 0 0 3 handlerWord ∧
      (((th.rd 2).toNat + (immOf th.ext 0 0).toNat) % 65536 % 2 ^ 1 ≠ 0) ∧ 2 ^ 48 ≤ (th.rdPair 1).toNat ∧
      (th.rdPair 3).toNat + (immOf [0x3FF] 0 0).toInt < 0 ∧ dSvc.mem.wf = true ∧
      (dSvc.thread 0 0).ext = [] ∧ (dSvc.thread 0 0).priv = false ∧ (bitN handlerWord 22 || bitN handlerWord 20 != th.priv) = true ∧
      (SeqOp.mov 1 2).takesExt = false ∧ 3 ≤ ({ th with ext := [1, 2, 3] } : Thread).ext.length := ⟨by unfold Dev.HasHandler; decide +kernel, by unfold Dev.HasHandler; decide +kernel, by unfold Dev.HasHandler; decide +kernel,
    by unfold Dev.HasHandler; decide +kernel, by unfold Dev.HasHandler; decide +kernel, by decide +kernel⟩

def thR : Thread := { thS with g := [(30, 0x100)], epc := 0x123, estat := 0x2008, epriv := 0x10001 }
def dR : Dev := { withThread thR with mem := { cells := [(lsCell 0 0x100, 0xEF), (lsCell 0 0x101, 0xBE), (lsCell 0 0x104, 0xEE), (lsCell 0 0x105, 0xEE),
    (lsCell 0 0x106, 0xFF), (lsCell 0 0x107, 0xFF), (lsCell 0 0x108, 0x55), (lsCell 0 0x109, 0x55), (lsCell 0 0x10C, 0x77), (lsCell 0 0x10D, 0x77)] } }
def dF : Dev := withThread { thS with fb := true, festat := 0x2004, fepriv := 1, fepc := 9, g := [(28, 77)], f := [(4, 5)] }

theorem dR_canIssue : CanIssue dR 0 0 := ⟨by decide, by decide, .inl (by decide), by decide, by decide, by decide⟩

/-- A thread in a fast handler, whose f bank and g bank differ. -/
theorem wit_fastReturn : CanIssue dF 0 0 ∧ NoExt dF 0 0 ∧ (dF.thread 0 0).priv = true ∧ (dF.thread 0 0).fb = true ∧
    ((dF.thread 0 0).festat.getLsbD 13 = true → (dF.thread 0 0).fepriv.getLsbD 0 = true) ∧
    (dF.thread 0 0).rd 28 = 5 ∧ (dF.thread 0 0).g.get 0 28 = 77 :=
  ⟨⟨by decide, by decide, .inl (by decide), by decide, by decide, by decide⟩, rfl, by decide, by decide, by decide,
    by decide, by decide⟩

theorem wit_return :
    (dR.thread 0 0).fb = false ∧ 0 < thR.depth ∧ thR.depth ≤ 8 ∧ (thR.estat.getLsbD 13 = true → bitN thR.pstk (thR.depth - 1) = true) ∧
    (toLE 16 0x0000777700005555FFFFEEEE0000BEEF).map some = (List.range 16).map (fun i => dR.lsByte 0 ((thR.rd 30).toNat + i)) ∧
    ({ thS with fb := true, festat := 0x2000, fepriv := 1 } : Thread).fepriv.getLsbD 0 = true := by decide +kernel

/-- A thread with every event enabled, two seed slots done and one faulted, a failed store, both presentations. -/
def thEv (x : Thread) : Dev :=
  { dHt x with evc := { stand := [(0, [7]), (1, [9])] } }
def evThread (cfg : Nat) : Thread :=
  { th with evcfg := BitVec.ofNat 32 cfg, sdone := 5, sfault := 2, asp := true, asq := [⟨1, 2⟩] }

/-- Each class in turn is the first deliverable one. -/
theorem wit_events :
    Dev.recognizes (evThread 31) = true ∧ (thEv (evThread 31)).deliverable 0 0 = some .fast ∧
      (thEv (evThread 29)).deliverable 0 0 = some .seedFault ∧ (thEv (evThread 21)).deliverable 0 0 = some .asyncStore ∧
      (thEv (evThread 5)).deliverable 0 0 = some .normal ∧ (thEv (evThread 4)).deliverable 0 0 = some .seedDone ∧
      ([0x10, 0x11, 0x12, 0x13, 0x14].all (fun v => ((thEv (evThread 31)).htEntry 0 0 v).2 == some handlerWord)) = true := by decide +kernel

theorem host_reaches : Agent.Reaches up .host := ⟨by decide +kernel, by decide +kernel⟩
theorem debug_reaches : Agent.Reaches up .debug := by show up.dbgSelected = true; decide +kernel
theorem thread_reaches : Agent.Reaches sS.dev (.thread 0 0) := ⟨by decide +kernel, by decide +kernel⟩
def thStop : Thread := { entry := 0x1FFFF, arg := 77, epriv := 5, g := [(2, 9)] }

/-- A STOPPED thread; a READY, a WAITING, a parked one that abandons and one that does not; a HALTED one. -/
theorem wit_threadControl :
    thStop.st = .stopped ∧ ((withThread thStop).tiller 0).hos.getLsbD 0 = false ∧ th.st = .ready ∧ th.halted = false ∧
      ({ th with st := .parked, park := .fence } : Thread).abandons = true ∧
      ({ th with st := .parked, park := .claim 1 } : Thread).abandons = false ∧ ({ th with st := .halted } : Thread).halted = true ∧
      Agent.isMaster .host = true ∧ up.domOn 70 = true := by decide +kernel

def srcA : EvSrc := { cfg := 0, tgt0 := 1, pend := true, count := 0xFF }
def dEv (x : EvSrc) : Dev := { withThread th with evc := { src := [(0x7C0, x)] } }

/-- A source that may be triggered; one whose timer runs; due; committed and not shown; withdrawn; masked within its window. -/
theorem wit_delivery :
    Dev.validSource 0x7C0 = true ∧ srcA.count ≠ 0 ∧ ({ srcA with cfg := 0x10000 } : EvSrc).modTime ≠ 0 ∧ (dEv srcA).due 0x7C0 = true ∧
      (dEv srcA).commitTurn 0x7C0 = true ∧ (dEv {}).due 0x7C0 = false ∧
      ({ dEv srcA with evc := { (dEv srcA).evc with comN := 4 } } : Dev).commitTurn 0x7C0 = false ∧
      ({ srcA with dlv := true } : EvSrc).targets 0 = true ∧ (0 : Nat) ∉ srcA.shown ∧ up.gate 0 = false ∧
      ({ srcA with cfg := 0x8000000000000000 } : EvSrc).mask = true := by decide +kernel

/-- A committed source presented to tiller 0 and to the two masters, and a thread parked in CLAIM. -/
def srcC : EvSrc := { srcA with dlv := true, shown := [0], tgt1 := 0x300000000 }
def dClaim : Dev := { dEv srcC with threads := [(0, { th with st := .parked, park := .claim 7 })] }
theorem wit_claim : ∀ m, (Dev.claimable (dClaim.src m) && (dClaim.src m).targets 0 && (dClaim.src m).shown.contains 0) = true ↔ m = 0x7C0 := by
  intro m
  by_cases h : m = 0x7C0
  · subst h; decide +kernel
  · have : dClaim.src m = {} := by simp [Dev.src, dClaim, dEv, SMap.get, h]
    simp [this, h, Dev.claimable]
theorem wit_claimBy : ∀ m, (Dev.claimable (dClaim.src m) && (dClaim.src m).host) = true ↔ m = 0x7C0 := by
  intro m
  by_cases h : m = 0x7C0
  · subst h; decide +kernel
  · have : dClaim.src m = {} := by simp [Dev.src, dClaim, dEv, SMap.get, h]
    simp [this, h, Dev.claimable]
theorem wit_claimNone : ∀ m, (Dev.claimable (up.src m) && (up.src m).host) = false := by intro m; rfl

theorem wit_claims :
    srcC.fast = false ∧ (dClaim.thread 0 0).fb = false ∧ (dClaim.thread 0 0).st = .parked ∧ dClaim.domOn 70 = true ∧ dClaim.hostReaches = true ∧
      dClaim.claimTurn 0 = true ∧ dClaim.pcie.d3 = false ∧
      ({ dClaim with evc := { dClaim.evc with claimFc := dClaim.fc, claimRank := 400 } } : Dev).claimTurn 0 = false := by decide +kernel

def opL : MemOp := { load := true, reg := 7, size := 8, va := 0, pa := 0x40 }
def dLdx : Dev := withThread { th with st := .parked, park := .ldx opL }
def sbE : SbEntry := ⟨0x40, 4, 0x11223344, false, false, []⟩
def dWalk : Dev :=
  { withThread { th with st := .parked, park := .walk { load := false, reg := 2, size := 4, va := 0x40, data := 9 }, xctx1 := 0x80000000, xctx0 := 4 } with
    objs := [(0x6110 * 256 + 1, 1)]
    mem := { cells := [((cellOf 0x4000).getD 0, 3), ((cellOf 0x4001).getD 0, 0x50), ((cellOf 0x5000).getD 0, 3), ((cellOf 0x5001).getD 0, 0x60),
      ((cellOf 0x6000).getD 0, 3), ((cellOf 0x6001).getD 0, 0x70), ((cellOf 0x7000).getD 0, 0x7F)] } }
/-- Eight threads wait for other pages before it. -/
def dWalk9 : Dev :=
  { dWalk with
    walkQ := [1, 2, 3, 4, 5, 6, 7, 8, 0]
    threads := dWalk.threads ++ (List.range 8).map (fun i => (i + 1, { th with st := .parked, xctx1 := 0x80000000, park := .walk { load := true, reg := 2, size := 4, va := 0x1000 * (i + 1) } })) }
def opA : MemOp := { load := true, reg := 7, size := 8, va := 0x18, pa := 0xB01680018 }
def dAtom : Dev := { dWalk with
  threads := [(0, { th with st := .parked, park := .ldx opA, xctx1 := 0x80000000, xctx0 := 4 })]
  atoms := [(0, { req := 0x0C00000000000040, opnd := 5 })] }

/-- A read of Loam returns; a store buffer entry not sent and sent; a walk of four levels; an AMO on the page it maps. -/
theorem wit_parked :
    (dLdx.busRead (.thread 0 0 false) 3 opL.pa opL.size).2.toOption = some (List.replicate 8 0) ∧ Dev.outside opL.pa = false ∧
      Dev.isAtomExec opL = false ∧ Dev.isXiSync opL = false ∧ sbE.sent = false ∧
      dLdx.stxFeeds sbE.pa = false ∧ dWalk.walkRuns 0 0 = true ∧ dWalk9.walkRuns 0 0 = false ∧
      (dLdx.busWrite (.thread 0 0 false) sbE.pa (toLE sbE.size sbE.data)).2.toOption = some () ∧
      (dWalk.walkFill (Dev.tillerPath 0) ⟨.write, dWalk.ctxOf 0 0, 0x40⟩).2.toOption = some 0x40 ∧
      Dev.isAtomExec opA = true ∧ 2 ^ fld (dAtom.atom 0 0).req.toNat 59 58 = 8 ∧
      (dAtom.xlate ⟨none, 0⟩ ⟨.atom, dAtom.ctxOf 0 0, 0x40⟩).2.toOption = some 0x40 := by decide +kernel

/-! Seeds and strips. -/

/-- A FILL of one U8, and its seed in flight. -/
def link0 : Desc :=
  { sid := 0, slot := 0, dva := 0, dpa := 0x4000, ctrl := 0x22, len := 1, prog := 0, aAddr := 0, bAddr := 0, dAddr := 0
    scalar := 0, scl0 := 0, xp := 0, amode := 0, ctx := { x1 := 0x80000000 } }
def seed0 : Seed := { tiller := 0, thread := 0, links := [link0], S := 512 }
/-- A SUM reduction of four elements in two strips. -/
def seedSum : Seed := { seed0 with links := [{ link0 with ctrl := 0x38, len := 4 }], S := 2 }
def cmd0 (cancel : Bool) : SeedCmd := { thread := 0, cancel := cancel, sid := 0 }
def dSeed (s : Seed) (x : Tiller) : Dev := { dTlb with seeds := [s], tillers := [(0, { x with utlb := (dTlb.tiller 0).utlb })] }

/-- A PAUSE and a CANCEL at the front; a command whose seeds have left flight. -/
theorem wit_seedCommands :
    (cmd0 false).started = false ∧ fld (cmd0 false).sid 11 5 = 0 ∧ (dSeed seed0 {}).seedsOf 0 (fld (cmd0 false).sid 4 3) = [seed0] ∧
      seed0.links.any (fun l => l.sid == (cmd0 true).sid && !l.gone) = true ∧ seed0.links.all (fun l => l.fin.isNone) = true ∧
      ({ seed0 with started := true } : Seed).unfinished = true ∧ ((opInfo (fOP link0.ctrl)).getD {}).pause = true ∧
      ({ seedSum with started := true } : Seed).unfinished = true ∧ ((opInfo (fOP 0x38)).getD {}).pause = false ∧ th.park ≠ .seedctl 0 ∧
      seed0.links.any (fun l => l.sid == 8 && !l.gone) = false ∧ (∀ sd ∈ (dSeed seed0 {}).seeds, sd.tiller = 0 → Seed.sidOf sd ∉ [8]) := by decide +kernel

/-- A thread whose SOW fetches the descriptor at 0x4000, of `len` elements, with control word byte `c`. -/
def dSow (c len : W8) : Dev :=
  { dTlb with
    threads := [(0, { th with st := .parked, park := .sowFetch false 6 0 0x4000, xctx1 := 0x80000000 })]
    mem := { cells := if len = 0 then [((cellOf 0x4000).getD 0, c)] else [((cellOf 0x4000).getD 0, c), ((cellOf 0x4008).getD 0, len)] } }
def words (c len : W8) : DWords := DWords.ofBytes ([c, 0, 0, 0, 0, 0, 0, 0, len] ++ List.replicate 55 0)

/-- A descriptor of no elements, one of one element, and one whose operation is not assigned. -/
theorem wit_descriptor :
    ((dSow 0x22 0).streamRead (.thread 0 0 false) 3 0x4000 64).2.toOption.map DWords.ofBytes = some (words 0x22 0) ∧
    ((dSow 0x22 1).streamRead (.thread 0 0 false) 3 0x4000 64).2.toOption.map DWords.ofBytes = some (words 0x22 1) ∧
    fTLOUT (words 0x22 1).ctrl = false ∧ (dSow 0x22 0).descCheck 0 0 false (words 0x22 0) = 0 ∧
    (dSow 0x22 1).descCheck 0 0 false (words 0x22 1) = 0 ∧ (words 0x22 1).len ≠ 0 ∧
    ((dSow 0x22 1).xlateRanges 0 ((dSow 0x22 1).ctxOf 0 0) (rangesOf (words 0x22 1) false)).2.toOption =
      some [(.dst, ⟨window 0x4000, 0x4000, 1⟩, 0)] ∧ Dev.addrCheck (words 0x22 1) false [(.dst, ⟨window 0x4000, 0x4000, 1⟩, 0)] = 0 ∧
    (dSow 0x22 1).freeSlot 0 0 = some 0 ∧ (dSow 0x7F 0).descCheck 0 0 false (words 0x7F 0) ≠ 0 := by decide +kernel

def fltA : SFault := { idx := 0, lo := 0, hi := 0, code := 0x20 }
/-- The seed with a fault at its one index, its strip ended. -/
def seedF : Seed := { seed0 with fault := some (0, fltA), done1 := [0], next := 1 }

/-- A chain that stays open; a seed whose only strip has ended; one whose write-back is issued. -/
theorem wit_seedEnds :
    (dSeed { seed0 with isOpen := true } {}).openChain 0 0 = some { seed0 with isOpen := true } ∧
    (dSeed { seed0 with done1 := [0], next := 1 } {}).seedAt 0 0 0 = some { seed0 with done1 := [0], next := 1 } ∧
    ({ seed0 with done1 := [0], next := 1 } : Seed).stripsDone = true ∧ ({ seed0 with done1 := [0], next := 1 } : Seed).combined = true ∧
    Dev.resultOf { seed0 with done1 := [0], next := 1 } link0 = none ∧ seed0.links ≠ [] ∧ seed0.cvuOf = none ∧
    (dSeed { seed0 with links := [{ link0 with fin := some ⟨3, 0, 1⟩, wb := true }] } {}).seedAt 0 0 0 =
      some { seed0 with links := [{ link0 with fin := some ⟨3, 0, 1⟩, wb := true }] } ∧
    (dSeed seed0 {}).openChain 0 0 = none ∧ ({ seed0 with done1 := [0], next := 1 } : Seed).settled = { seed0 with done1 := [0], next := 1 } ∧
    seedF.settled.fault = some (0, fltA) ∧ seedF.settled.stripsDone = true ∧
    ({ seed0 with stop := 1 } : Seed).settled.fault = none ∧ ({ seed0 with stop := 1 } : Seed).settled.stripsDone = false ∧
    ({ seed0 with stop := 1 } : Seed).settled.strips = [] ∧
    (dSeed { seed0 with stop := 1 } {}).cmdDrained { seed0 with stop := 1 } = true ∧ (dSeed { seed0 with stop := 1 } {}).faultFirst { seed0 with stop := 1 } = false := by decide +kernel

def strip0 : Strip := { k := 0, tiller := 0, lo := 0, hi := 1, started := true }
/-- A chain of one seed whose posted write is due, and a granted strip of tiller 1. -/
def seedLent : Seed := { seed0 with next := 1, strips := [{ strip0 with tiller := 1, started := false }] }

/-- A strip to start; one with a fault; one with a partial; one that ends; an op to form. -/
theorem wit_strips :
    (dSeed seed0 {}).tillerOn 0 = true ∧ (dSeed seed0 {}).pipeFrozen 0 = false ∧ (dSeed seed0 {}).inProgress 0 < 2 ∧
    (dSeed seed0 {}).nextOwn 0 = some (seed0, (0, false)) ∧ ((seed0.take (0, false) 0 true).stripOf 0 false).isSome = true ∧
    ({ seedSum with strips := [strip0] } : Seed).stripOf 0 false = some strip0 ∧ seedSum.combines = true ∧ seedSum.find = false ∧
    ({ seedSum with parts := [(0, {}), (1, {})] } : Seed).opToForm = some (0, 2) ∧
    ({ seedSum with parts := [(0, {}), (1, {})] } : Seed).nodeVal 0 (Seed.leftOf 2) = some {} ∧
    ({ seedSum with parts := [(0, {}), (1, {})] } : Seed).nodeVal 1 (2 - Seed.leftOf 2) = some {} ∧ seedSum.scan = false ∧
    (dSeed seedLent {}).tillerOn 1 = true ∧ (dSeed seedLent {}).nextOwn 1 = none ∧ (dSeed seedLent {}).inProgress 1 < 2 ∧
    (dSeed seedLent {}).seeds = [] ++ seedLent :: [] ∧ SMap.find seedSum.parts 0 = none ∧ seedSum.cvuOf = none := by decide +kernel

/-- Tiller 1 asks for work and tiller 0 has a strip to lend. -/
def dGlean : Dev :=
  { dSeed seed0 {} with tillers := [(1, { glreq := true, glfrom := 95 })] }

theorem wit_glean :
    (dGlean.tiller 1).glreq = true ∧ dGlean.mayRequest 1 = true ∧ dGlean.arbiterFor 1 = some 0 ∧
    dGlean.grantable 1 0 = some (seed0, (0, false)) ∧ (∀ u : Fin 96, u ≠ 1 → (dGlean.tiller u).glreq = false) := by decide +kernel

/-! Memory, invalidation, upkeep; the Piste. -/

/-- The dictionary core is free for session `ses`. -/
def coreFreeB (d : Dev) (_ : Nat) : Bool := d.dict.busy.isNone && d.dict.waiting.isEmpty

theorem coreFree_of (d : Dev) (ses : Nat) (h : coreFreeB d ses = true) : d.CoreFree ses := by
  simp only [coreFreeB, Bool.and_eq_true, Option.isNone_iff_eq_none, List.isEmpty_iff] at h
  exact ⟨h.1, by simp [h.2]⟩

/-- The session is up, the core is free for it, has performed nothing, and a write of `n` bytes to the object passes the checks of R483. -/
def acceptsB (d : Dev) (ses : Fin 6) (i s n : Nat) : Bool :=
  d.sessionUp ses && coreFreeB d ses && (d.session ses).seq.isNone &&
  match d.objGate ses i s true false none with
  | .ok (.domain _, _) => false
  | .ok (t, _) => t.fits n
  | .error _ => false

theorem accepts_of (d : Dev) (ses : Fin 6) (seq : W32) (i s n : Nat) (h : acceptsB d ses i s n = true) :
    d.Accepts ses seq i s n := by
  unfold acceptsB at h
  simp only [Bool.and_eq_true, Option.isNone_iff_eq_none] at h
  obtain ⟨⟨⟨hu, hc⟩, hs⟩, hg⟩ := h
  refine ⟨⟨hu, coreFree_of d ses hc, by simp [hs], by simp [hs]⟩, ?_⟩
  split at hg
  · cases hg
  · exact ⟨_, _, by assumption, hg, by intro m; rintro rfl; simp_all⟩
  · cases hg

theorem serves_of (d : Dev) (ses : Fin 6) (seq : W32)
    (h : (d.sessionUp ses && coreFreeB d ses && (d.session ses).seq.isNone) = true) :
    d.Serves ses seq := by
  simp only [Bool.and_eq_true, Option.isNone_iff_eq_none] at h
  exact ⟨h.1.1, coreFree_of d ses h.1.2, by simp [h.2], by simp [h.2]⟩
/-- A granule with two wrong bits. -/
def badMem : Mem := { cells := [(9, 7)], synd := [(1, 3)] }

/-- Cells at 7, 8 and the last of the global window; a part of an uncorrectable granule. -/
theorem wit_writeThenRead :
    ({} : Mem).wf = true ∧ (∀ p ∈ [(7, (5 : W8)), (8, 0)], ({} : Mem).byte? p.1 ≠ none) ∧ badMem.wf = true ∧
    (∀ p ∈ [(8, (1 : W8)), (15, 2)], p.1 / 8 = 1) ∧ badMem.byte? (8 * 1) = none ∧ (∀ i < 8, (8 : Nat) / 8 * 8 + i ∈ List.range' 8 8) := by decide +kernel

/-- A page of partition 0, one of partition 1 that is global, and a large one, in the TLB of quadrant 3. -/
def tlbPage (part asid va : Nat) (glob : Bool) : TlbEntry :=
  { ((dTlb.tiller 0).utlb.getD 0 ⟨0, 0, true, 0, 4096, 0x4000, true, true, true, true, true, true, 3, 3, 0⟩) with
    part := part, asid := asid, va := va, glob := glob }
def dInv (x : Thread) : Dev :=
  { up with threads := [(0, x)], objs := [(0x6100 * 256 + 1, 1)]
            stlb := [(0, [tlbPage 0 5 0x1000 false, tlbPage 1 5 0x1000 true, tlbPage 1 6 0x1000 false, tlbPage 1 5 0x2000 false])] }
def tSync : Thread := { th with st := .parked, park := .ldx ⟨true, 4, 8, 0x1000, xiAddr 3 + 8, 0, []⟩, priv := true }

/-- The host, the debug path and a thread at S reach the registers; a thread waits for XI_SYNC. -/
theorem wit_invalidation :
    (dInv thS).domOn (Dev.granDom 3) = true ∧ (dInv tSync).tillerOn 0 = true ∧ ((dInv tSync).thread 0 0).st = .parked ∧ tSync.sb = [] ∧
    tSync.priv = true ∧ tSync.dbg.busy = false ∧ tSync.dbg.haltReq = 0 ∧ (dInv thS).hostReaches = true ∧ (dInv thS).dbgSelected = true := by decide +kernel

def dFix : Dev := { up with mem := { cells := [(8, 8)], synd := [(1, 14)], fixes := [1, 4] }, objs := [(0x6010 * 256 + 4, 24), (0x6011 * 256 + 8, 24)] }

/-- A correction waits; the scrubbers of quadrant 3 at their last line and of stack 7 at their first. -/
theorem wit_upkeep :
    dFix.mem.wf = true ∧ dFix.mem.fixes = 1 :: [4] ∧ dFix.mem.syndOf (8 * 1) = .data 3 ∧ dFix.domOn (49 + 3) = true ∧ dFix.obj 0x6010 4 ≠ 0 ∧
    (Dev.cellsOf (Dev.granScrubPa 3 786431) 64).isSome = true ∧ dFix.obj 0x6011 8 ≠ 0 ∧ (Dev.cellsOf (Dev.loamScrubPa 7 0) 64).isSome = true := by decide +kernel

/-- Slot 0 of engine 0: a FILL of four U8 in the result buffer; furrow 0 fills it, furrow 1 sends it on port 0. -/
def slot0 : PSlot :=
  { cfg := 1, wlen := 4, wbuf1 := 0x100, rbuf0 := 0x200, rbuf1 := 0x300, rlen := 4
    descs := [(0, 0x22), (1, 4), (4, 0x800000), (5, 0x5A)] }
def furIn : Furrow := { ctx := [(1, 0x8000000000000000), (2, 0x0000000400000000), (6, 0x00010000000003E8)] }
def furOut : Furrow := { ctx := [(1, 0xA000000000000000), (2, 0x0000000400000000), (5, 0x4000), (6, 0x0000220000000000)], st := .enabled, P := 9 }
def dPiste (x : PSlot) (g : Engine) (p : PortSt) : Dev :=
  { up with engines := [(0, { g with slots := [(0, x)] })], furrows := [(0, furIn), (1, furOut)], ports := [(0, { st := p })]
            objs := [(0x3010 * 256 + 1, 0xB2000000)] }
theorem wit_admit : (dPiste slot0 {} .up).Accepts 0 1 0x5100 1 4 ∧ (dPiste slot0 {} .up).admitCheck 0 0 0 = (0, 0, 0) := by
  refine ⟨accepts_of _ _ _ _ _ _ (by decide +kernel), ?_⟩
  unfold Dev.admitCheck
  generalize Config.speed15 = b
  revert b
  decide +kernel
/-- A program of an operation with no Piste form, and a slot that is live. -/
def slotBad : PSlot := { slot0 with descs := [(0, 0x2E), (1, 4)] }
def slotLive0 : PSlot := { slot0 with st := .admitted, wbusy0 := true }

/-- A program that fails in descriptor 0; an admitted slot; a refused one; the sub-object of the last slot. -/
theorem wit_admitRefused :
    (dPiste slotBad {} .up).admitCheck 0 0 0 = (5, 0, 2) ∧ (dPiste slotLive0 {} .up).admitCheck 0 0 0 = (2, 0, 0) ∧
      (dPiste slotLive0 {} .up).Accepts 0 1 0x5100 1 4 ∧ (dPiste slot0 {} .up).Accepts 0 1 0x5100 64 4 ∧
      (dPiste { slot0 with st := .withdrawing } {} .up).slotDrained 0 0 = true := ⟨by decide +kernel, by decide +kernel, accepts_of _ _ _ _ _ _ (by decide +kernel), accepts_of _ _ _ _ _ _ (by decide +kernel), by decide +kernel⟩

def run0 : PRun := ⟨0, false, 100, false, false⟩
/-- A window of furrow 0 that is complete. -/
def asm0 : Asm := { id := 4, wseq := 0, bytes := 4, frames := 1, buf := some false, closed := some ⟨1, 100, 0, none⟩ }
def dWin : Dev := { dPiste slotLive0 {} .up with furrows := [(0, { furIn with st := .enabled, wins := [asm0] }), (1, furOut)] }

/-- A complete window; a run to dispatch; one to commit. -/
theorem wit_pisteRuns :
    dWin.readyWin 0 = some (asm0, ⟨1, 100, 0, none⟩) ∧ dWin.frozen 40 = false ∧ (dWin.furrow 0).chainOn = false ∧ (dWin.furrow 0).eng = 0 ∧
    (dPiste slotLive0 { queue := [run0] } .up).frozen 48 = false ∧ (dPiste slotLive0 { running := some run0 } .up).domOn (Dev.pisteDom 0) = true ∧
    slotLive0.nseed = 1 ∧
    (((dPiste slotLive0 { running := some run0 } .up).pisteSeed 0 (Dev.pisteLink slotLive0 0 false (slotLive0.dwords 0))).1.engine 0).running = some run0 := by decide +kernel

def dDone (p : PortSt) (f : FurSt) : Dev :=
  { dPiste slotLive0 { done := [run0] } p with furrows := [(0, { furIn with st := .enabled }), (1, { furOut with st := f })], mem := { cells := [] } }
def expr0 : ExpFrame := ⟨1, 0, 0, false, 100, false, List.replicate 60 7⟩
def dMon : Dev :=
  let d := dPiste slotLive0 { deadlines := [⟨0, false, 50⟩] } .up
  { d with objs := [(0x3010 * 256 + 1, 0xB2000000), (0x5108 * 256 + 1, 7)], alm := { mono := 50 * 2 ^ 32 }
           dict := { rclaims := [(0xA101 * 256 + 8, 0x500)] } }

/-- Results of a furrow that is disabled, of a port that is down, of one that is up; a frame in an express queue. -/
theorem wit_pisteResults :
    (dDone .up .disabled).chainReady 1 = true ∧ ((dDone .up .disabled).furrow 1).st ≠ .enabled ∧ (dDone .down .enabled).portUp 0 = false ∧
    (((dDone .up .enabled).setEngine 0 { (dDone .up .enabled).engine 0 with done := [] }).egressRead 1 (Dev.storeBase 0 + 0x200) 4).2.isSome = true ∧
    ((dDone .up .enabled).egressRead 1 0x4000 34).2.isSome = true ∧ ((dDone .up .enabled).furrow 1).hlen = 34 ∧ (dDone .up .enabled).obj 0x3030 1 < 2 ^ 31 := by decide +kernel

/-- An engine with no unit and one with unit 7; a deadline that has passed. -/
theorem wit_monitors :
    (dPiste slot0 {} .up).Accepts 0 1 0x5108 4 1 ∧ dMon.Accepts 0 1 0x5108 1 1 ∧ (dPiste slot0 {} .up).unitHolder 7 = 0 ∧ (dPiste slot0 {} .up).monitorUnit 0 = none ∧
      dMon.unitHolder 7 ≠ 0 ∧ dMon.unitHolder 7 ≠ 0x501 ∧ dMon.monitorUnit 0 = some 7 ∧ (50 : Nat) ≤ dMon.mono := ⟨accepts_of _ _ _ _ _ _ (by decide +kernel), accepts_of _ _ _ _ _ _ (by decide +kernel), by decide +kernel⟩

/-! The Pelz dictionary. -/

theorem ok_of {α β : Type} {r : Except α β} {b : β} (h : r.toOption = some b) : r = .ok b := by
  cases r <;> simp [Except.toOption] at h; rw [h]

/-- A device whose sessions 0 and 5 hold request 7, with OWNER as given. -/
def dSes (seq : Option W32) (owner : Bool) : Dev :=
  { up with dict := { sessions := [(0, { seq := seq, resp := [1, 2, 3], accAddr := 0x4000 }), (5, { seq := seq, accAddr := 0x4000 })], owner := owner } }
def mRead : Msg := { op := 0x01, seq := 0xFFFFFFFF, index := 0x1011, sub := 0 }
theorem wit_read : (dSes none false).AsksFor 0 mRead (.int 2) .rwh :=
  ⟨by decide +kernel, coreFree_of _ _ rfl, rfl, by decide +kernel, rfl, ⟨rfl, rfl⟩, ok_of (by decide +kernel), by intro n; nofun, by decide +kernel⟩

/-- Values at both ends of the range and past it, by the main host and by the side-band master that owns; all thirteen objects. -/
theorem wit_write :
    (∀ p ∈ [(0x1011, 0, 2), (0x1112, 1, 2), (0x2002, 0, 1), (0x2004, 0, 4), (0x2060, 0, 1), (0x3012, 1, 2), (0x3300, 1, 8),
        (0x3402, 3, 4), (0x4200, 7, 1), (0x4201, 2, 1), (0x5102, 5, 1), (0x6010, 4, 2), (0x9031, 0, 1)],
      acceptsB up (if p.1 = 0x2060 then 5 else 0) p.1 p.2.1 p.2.2 = true) ∧ up.Accepts 0 9 0x1011 0 2 ∧ (dSes (some 7) true).Serves 5 8 ∧
      Dev.inRange 0x1011 0 100 = true ∧ Dev.inRange 0x1011 0 60000 = true ∧ Dev.inRange 0x1011 0 99 = false ∧ Dev.inRange 0x1011 0 60001 = false := ⟨by decide +kernel, accepts_of _ _ _ _ _ _ (by decide +kernel),
      ⟨by decide +kernel, coreFree_of _ _ rfl, by decide +kernel, by intro k h; cases h; decide +kernel⟩, by decide +kernel⟩

/-- A micro-TLB entry of partition 3 in tiller 95, and thread 3 of it in state `st`; a shared entry of partition 15. -/
def dPartn (st : TSt) : Dev :=
  { up with threads := [(383, { st := st, sb := [⟨0x4010, 4, 1, false, false, []⟩] })], tillers := [(95, { utlb := (dTlb.tiller 0).utlb })]
            stlb := [(3, [{ ((dTlb.tiller 0).utlb.getD 0 ⟨0, 0, true, 0, 4096, 0x4000, true, true, true, true, true, true, 3, 3, 0⟩) with part := 15 }])] }

/-- A tiller's partition, with its threads STOPPED and with one that is not; a stage-2 root, with and without an access left. -/
theorem wit_partitions :
    (dPartn .stopped).Accepts 0 9 0x6100 96 1 ∧ (dPartn .ready).Accepts 0 9 0x6100 96 1 ∧ (dPartn .ready).Accepts 0 9 0x6110 16 8 ∧
    ((dPartn .stopped).thread 95 3).st = .stopped ∧ (dPartn .stopped).seeds = [] ∧
    ((dPartn .ready).keepEntries 515 (fun e => e.part != 15)).syncing 515 = true ∧ ((dPartn .ready).keepEntries 501 (fun e => e.part != 1)).syncing 501 = false := ⟨accepts_of _ _ _ _ _ _ (by decide +kernel), accepts_of _ _ _ _ _ _ (by decide +kernel), accepts_of _ _ _ _ _ _ (by decide +kernel), by decide +kernel⟩

theorem wit_readLevels :
    (dSes none false).sessionUp 0 = true ∧ ((dSes none false).session 0).performs { op := 0x01, seq := 9, index := 0xA001 } = true ∧
    ((dSes none false).session 0).performs { op := 0x01, seq := 9, index := 0x9040, sub := 1 } = true := by decide +kernel

/-- The last request again, one just ahead, one that is behind. -/
theorem wit_repeat :
    (dSes (some 7) false).sessionUp 0 = true ∧ ((dSes (some 7) false).session 0).seq = some 7 ∧ 2 ^ 31 < ((6 : BitVec 32) - 7).toNat := by decide +kernel

/-- WRITEV values: two entries, one in range and one not. -/
def twoWrites (a b : Nat) : List W8 := toBE 2 0x1011 ++ [0, 0, 0, 2, 0, 0] ++ toLE 2 a ++ [0, 0] ++ toBE 2 0x2002 ++ [0, 0, 0, 1, 0, 0] ++ toLE 1 b ++ [0, 0, 0]
def d0Many : Dev := (dSes none false).asked 0 ((dSes none false).bare 0)

theorem wit_writeMany :
    (dSes none false).Serves 0 9 ∧ Dev.entries 32 ((twoWrites 100 1).drop 1) = none ∧ (Dev.entries 32 (twoWrites 100 1)).isSome = true ∧
      d0Many.checkEntries 0 (Dev.domEntries ((Dev.entries 32 (twoWrites 100 2)).getD [])) d0Many 0 ((Dev.entries 32 (twoWrites 100 2)).getD []) = some (.range, 1) ∧
      d0Many.checkEntries 0 (Dev.domEntries ((Dev.entries 32 (twoWrites 100 1)).getD [])) d0Many 0 ((Dev.entries 32 (twoWrites 100 1)).getD []) = none ∧
      (Dev.applyEntries 0 (Dev.domEntries ((Dev.entries 32 (twoWrites 100 1)).getD [])) d0Many ((Dev.entries 32 (twoWrites 100 1)).getD [])).2 = none ∧
      (SMap.find (Dev.applyEntries 0 (Dev.domEntries ((Dev.entries 32 (twoWrites 100 1)).getD [])) d0Many ((Dev.entries 32 (twoWrites 100 1)).getD [])).1.dict.sessions 0).isSome = true := ⟨serves_of _ _ _ (by decide +kernel), by decide +kernel⟩

def mbRead : List W8 := [1, 0, 0, 0] ++ toBE 4 9 ++ toBE 2 0x1011 ++ List.replicate 10 0
def dMb (bs : List W8) : Dev := { up with dict := { mbReq := (List.range bs.length).zip bs } }
/-- A plain Mbaros frame to this FV96 with message `mbRead`, of mode `mode`. -/
def mbFrame (mode : W8) : List W8 :=
  up.octObj 0x1050 4 ++ [2, 0, 0, 0, 0, 1, 0x88, 0xB5, 1, mode, 0, 20] ++ List.replicate 12 0 ++ mbRead
theorem wit_mailbox : (dMb mbRead).hostReaches = true ∧ (dMb mbRead).pcie.d3 = false ∧
    (dMb mbRead).AsksFor 0 (Msg.ofBytes mbRead) (.int 2) .rwh ∧ 0x800 < 20 + (Msg.ofBytes (mbRead.set 14 8)).len :=
  ⟨by decide +kernel, by decide +kernel, ⟨by decide +kernel, coreFree_of _ _ rfl, by decide +kernel, by decide +kernel, by decide +kernel, by decide +kernel, ok_of (by decide +kernel), by intro n; nofun, by decide +kernel⟩, by decide +kernel⟩
theorem wit_mbaros : (mbFrame 0x80).take 6 = up.octObj 0x1050 4 ∧ (up.octObj 0x1050 1).any (· != 0) = false ∧
    up.hl.por = false ∧ up.hl.mbClock = true ∧ pelzAt (mbFrame 0x80) (up.obj 0x1030 0) = some (14, false) ∧
    outerAt (mbFrame 7) 14 = none ∧ (outerAt (mbFrame 0x80) 14).map Outer.body = some mbRead ∧ up.obj 0x1050 2 = 0 ∧
    up.AsksFor 5 (Msg.ofBytes mbRead) (.int 2) .rwh :=
  ⟨rfl, by decide +kernel, by decide +kernel, by decide +kernel, by decide +kernel, by decide +kernel, by decide +kernel, by decide +kernel,
    ⟨by decide +kernel, coreFree_of _ _ rfl, by decide +kernel, by decide +kernel, by decide +kernel, by decide +kernel, ok_of (by decide +kernel), by intro n; nofun, by decide +kernel⟩⟩
/-- A UDP datagram with the message enciphered under the key of 32 bytes 1 and COUNTER `c`, and its ICV plus `e`; the two were
computed with an AES-GCM written apart from the model. -/
def keyFrame (c : W8) (e : Nat) : List W8 :=
  up.octObj 0x1050 4 ++ [2, 0, 0, 0, 0, 1, 8, 0, 0x45, 0, 0, 80, 0, 0, 0, 0, 9, 17, 0, 0, 0, 0, 0, 0, 0, 0, 0, 0] ++
  [0, 9, 15, 160, 0, 60, 0, 0, 1, 0, 0, 20, 0, 0, 0, 0, 0, 0, 0, 0, 0, 0, 0, c] ++
  toBE 36 ((if c = 7 then 0xee922a7cb2a6d405b3d4567b611615d907785c7951528b820906e33c23888b7fe7605796
    else 0xb9477a2b828f4d58a663f199e01c5986ff5be459070525c6e25963c319f4ccb67ae0c7b9) + e)
def dKeyed : Dev := { up with objs := [(0x1030 * 256, 4000)], dict := { keys := [(0, List.replicate 32 1)], roles := [(0, 3)], rxCtr := [(0, 7)] } }
/-- The core is in an operation of session `ses`. -/
def dBusy (ses : Nat) : Dev := { up with dict := { busy := some { ops := [.sync 515], ses := ses } } }

/-- The enciphering of one block of zeros under a key of zeros, as the published test vectors of GCM give it. -/
theorem wit_gcm :
    Gcm.seal_ (List.replicate 32 0) (List.replicate 12 0) [] (List.replicate 16 0) =
      toBE 16 0xcea7403d4d606b6e074ec5d3baf39d18 ++ toBE 16 0xd0d1c8a799996bf0265b98b5d48ab919 := by decide +kernel

/-- A frame with the right ICV and COUNTER 8; one with a wrong ICV; one whose COUNTER was seen. -/
theorem wit_keyed :
    pelzAt (keyFrame 7 0) (dKeyed.obj 0x1030 0) = some (42, true) ∧ (outerAt (keyFrame 7 0) 42).map Outer.mode = some 0 ∧ dKeyed.hasKey 0 = true ∧ dKeyed.role 0 = 3 ∧
    (outerAt (keyFrame 7 0) 42).any (fun x => x.opened (List.replicate 32 1) true (keyFrame 7 0) == (true, mbRead) && x.ctr == 7) = true ∧
    (outerAt (keyFrame 7 1) 42).any (fun x => (x.opened (List.replicate 32 1) true (keyFrame 7 1)).1) = false ∧
    ofBE (mbRead.take 1) = 1 ∧ SMap.find dKeyed.dict.rxCtr 0 = some 7 := by decide +kernel

theorem wit_waiting :
    (dBusy 0).sessionUp 5 = true ∧ (dBusy 0).pendingReq 5 = false ∧ (dBusy 5).pendingReq 5 = true := by decide +kernel

/-- OWNER and LAPSED as given, with a claim of session 0 and one of session 5, and a key in slot 0 of role 3. -/
def dOwn (owner lapsed : Bool) : Dev :=
  { up with hl := { up.hl with time := 40000001 }
            dict := { owner := owner, lapsed := lapsed, oclaims := [⟨1, 0, 2 ^ 40⟩, ⟨2, 5, 2 ^ 40⟩], keys := [(0, List.replicate 32 1)], roles := [(0, 3)] } }

/-- OWNER and LAPSED in every combination that a clause names; a beat that is late by one hc; key and role writes. -/
theorem wit_ownership :
    (dOwn false true).Accepts 0 1 0x1010 0 4 ∧ (dOwn false true).Accepts 5 1 0x1013 0 1 ∧ (dOwn true true).Accepts 5 1 0x1013 0 1 ∧
    (dOwn false false).Accepts 5 1 0x1013 0 1 ∧ (dOwn false false).Accepts 0 1 0x1040 4 32 ∧ (dOwn true false).Accepts 5 1 0x1041 1 1 ∧
    (dOwn false false).Accepts 0 1 0x1041 1 1 ∧ (dOwn true false).isSb 5 = true ∧ (dOwn false false).role 0 = 3 ∧
    (dOwn false false).dict.beatAt + (dOwn false false).obj 0x1011 0 * 4000 < (dOwn false false).hl.time.toNat ∧ (dOwn false false).hl.dev ≠ .held ∧
    up.hl.time.toNat ≤ up.dict.beatAt + up.obj 0x1011 0 * 4000 := ⟨accepts_of _ _ _ _ _ _ (by decide +kernel), accepts_of _ _ _ _ _ _ (by decide +kernel), accepts_of _ _ _ _ _ _ (by decide +kernel),
      accepts_of _ _ _ _ _ _ (by decide +kernel), accepts_of _ _ _ _ _ _ (by decide +kernel), accepts_of _ _ _ _ _ _ (by decide +kernel),
      accepts_of _ _ _ _ _ _ (by decide +kernel), by decide +kernel⟩

def dClaims : Dev :=
  { up with dict := { oclaims := [⟨0x1011 * 256, 0, 100⟩, ⟨0x2060 * 256, 5, 100⟩, ⟨0x2002 * 256, 5, 0⟩]
                      rclaims := [(0xA100 * 256 + 32, 0x200), (0xA101 * 256 + 1, 0x100), (0xA101 * 256 + 2, 0x100)] }
            alm := { units := [(1, { cfg := 1 })] } }

/-- Leases at both ends; a claim of the session, one of another; entries free, held, in use and of another master. -/
theorem wit_claimsHeld :
    dClaims.Serves 0 1 ∧ (∃ a, dClaims.objGate 0 0x1112 1 false true none = .ok a) ∧ (∃ a, dClaims.objGate 0 0x1011 0 false false none = .ok a) ∧
    dClaims.claimOn 0x1011 0 = some ⟨0x1011 * 256, 0, 100⟩ ∧ (∀ c, dClaims.claimOn 0x2060 0 = some c → c.session ≠ 0) ∧
    (∃ a, dClaims.objGate 0 0x2060 0 false false none = .ok a) ∧ dClaims.Accepts 0 1 0xA100 32 2 ∧ dClaims.Accepts 0 1 0xA117 32 2 ∧
    dClaims.Accepts 0 1 0xA101 1 2 ∧ dClaims.holder 0xA117 32 = 0 ∧ dClaims.holder 0xA100 32 = 0x200 ∧ dClaims.isSb 0 = false ∧
    dClaims.holder 0xA101 1 = 0x100 ∧ dClaims.configures 0 = true ∧ dClaims.resBusy (Dev.Res.of 0xA101 1) = false ∧
    dClaims.resBusy (Dev.Res.of 0xA101 2) = true ∧ Dev.mayHold (Dev.Res.of 0xA117 32) 0x30F = true ∧ Dev.mayHold (Dev.Res.of 0xA117 4) 0x30F = false := ⟨serves_of _ _ _ (by decide +kernel), ⟨(.int 2, .rwh), ok_of (by decide +kernel)⟩, ⟨(.int 2, .rwh), ok_of (by decide +kernel)⟩, by decide +kernel,
      by intro c h; rw [show dClaims.claimOn 0x2060 0 = some ⟨0x2060 * 256, 5, 100⟩ by decide +kernel] at h; cases h; decide,
      ⟨(.int 1, .rws), ok_of (by decide +kernel)⟩, accepts_of _ _ _ _ _ _ (by decide +kernel), accepts_of _ _ _ _ _ _ (by decide +kernel),
      accepts_of _ _ _ _ _ _ (by decide +kernel), by decide +kernel⟩

/-- Source 0x600 stands for the side-band master, source 0x7FF for the main host; Granary holds 0x11 at 0x8_0000_0000. -/
def dAcc : Dev :=
  { up with dict := { sessions := [(0, { accAddr := 0x800000000 }), (5, { accAddr := 0x800000000 })] }
            mem := { cells := [((cellOf 0x800000000).getD 0, 0x11)] }
            evc := { src := [(0x600, { cfg := 0, dlv := true, count := 3, tgt1 := 0x200000000 }), (0x7FF, { cfg := 0, dlv := true, tgt1 := 0x100000000 })] } }
theorem wit_eventClaims : (∀ m, (Dev.claimable (dAcc.src m) && (dAcc.src m).sb) = true ↔ m = 0x600) ∧
    ∀ m, (Dev.claimable (dAcc.src m) && (dAcc.src m).host) = true ↔ m = 0x7FF := by
  have other : ∀ m, m ≠ 0x600 → m ≠ 0x7FF → dAcc.src m = {} := by
    intro m h₁ h₂; simp [Dev.src, dAcc, SMap.get, h₁, h₂]
  constructor <;> intro m <;> (by_cases h₁ : m = 0x600 <;> by_cases h₂ : m = 0x7FF) <;>
    first | (subst h₁; decide +kernel) | (subst h₂; decide +kernel) | (rw [other m h₁ h₂]; simp [Dev.claimable, h₁, h₂])

/-- Reads and writes of 8 bytes at the session's address, a block of 1024 and one of 8 that ends at the last byte. -/
theorem wit_access :
    dAcc.Serves 0 1 ∧ (dAcc.objGate 5 0x7010 1 false false none).toOption = some (u16, .ro) ∧ (dAcc.objGate 0 0x7010 2 false false none).toOption = some (u16, .ro) ∧
    dAcc.isSb 5 = true ∧ dAcc.isSb 0 = false ∧ (∃ x, dAcc.objGate 0 0x6200 3 false false none = .ok x) ∧ dAcc.Accepts 0 1 0x6200 3 8 ∧
    ((dAcc.asked 0 (dAcc.session 0)).bridgeRead 0 0x800000000 8).2.toOption = some [0x11, 0, 0, 0, 0, 0, 0, 0] ∧
    ((dAcc.asked 0 (dAcc.bare 0)).bridgeWrite 0 0x800000000 (toLE 8 5)).2.toOption.isSome = true ∧
    ((dAcc.asked 0 (dAcc.session 0)).bridgeRead 0 0x800000000 8).1.dict = (dAcc.asked 0 (dAcc.session 0)).dict ∧
    (dAcc.objGate 0 0x6200 4 false false none).toOption = some (.domain (2 ^ 24), .rwh) ∧ (dAcc.objGate 0 0x6200 4 true false none).toOption = some (.domain (2 ^ 24), .rwh) ∧
    ((dAcc.asked 0 (dAcc.session 0)).blockRead 0 (min 1024 (2 ^ 24 - 16777208) / 8) (0x800000000 + 16777208) []).2.2 = none ∧
    ((dAcc.asked 0 (dAcc.bare 0)).blockWrite 0 0x800000000 (Dev.addWords [] 1 2097151 (toLE 8 9)) 0).2.2 = none := ⟨serves_of _ _ _ (by decide +kernel), by decide +kernel, by decide +kernel, by decide +kernel, by decide +kernel,
      ⟨(.int 8, .rwh), ok_of (by decide +kernel)⟩, accepts_of _ _ _ _ _ _ (by decide +kernel), by decide +kernel⟩

/-! Drills, check-value units, furrows and partners. -/

/-- Channel 31 of Drill 7, held by the host: 256 bytes from Loam 0x4000 to 0x8000. -/
def chan0 : Chan := { src := 0x4000, dst := 0x8000, count := 256, next := 0x4020 }
def dDrill (x : Chan) (g : Drill) : Dev :=
  { up with drills := [(7, { g with chans := [(31, x)] })], dict := { rclaims := [(0xA117 * 256 + 32, 0x100)] }
            mem := { cells := [((cellOf 0x4000).getD 0, 0x5A)] } }

/-- A start that passes, one of no bytes; fetches at both ends and past them; a queued channel and a running one. -/
theorem wit_drillControl :
    (dDrill chan0 {}).domOn 75 = true ∧ (dDrill chan0 {}).mayWriteHeld (Agent.host.orig up) ((dDrill chan0 {}).chanHolder 7 31) = true ∧ chan0.active = false ∧
    chan0.check 0 = 0 ∧ ({ chan0 with count := 0 } : Chan).check 0 = 3 ∧ (dDrill chan0 {}).chanCvuBad 7 31 chan0 = false ∧
    (dDrill chan0 {}).chanCvuBad 7 31 { chan0 with ctrl := 0x40000 } = true ∧ ({ chan0 with ctrl := 0x40000 } : Chan).check 0 = 0 ∧ chan0.next.toNat % 32 = 0 ∧
    ({ chan0 with next := 0x3FFFFFFFFFE0 } : Chan).next.toNat < 2 ^ chan0.abits ∧ ({ chan0 with next := 0x400000000000 } : Chan).next.toNat = 2 ^ chan0.abits ∧
    (0x4021 : Nat) % 32 ≠ 0 ∧ (dDrill { chan0 with st := .running } {}).chanWaits 7 31 = false := by decide +kernel

def chanR : Chan := { chan0 with st := .running }
def gBusy : Drill := { busy := true, cur := 31 }
/-- A short move with CHAIN = 1 whose abort is asked; a move to an address that does not exist. -/
def chanA : Chan := { chanR with count := 8, ctrl := 0x800, abrt := true }
def chanBad : Chan := { chanR with dst := 0x40000000000, ctrl := 0x200 }
/-- The descriptor at 0x4020 of the same 256 bytes, and one of no bytes. -/
def dDesc (n : W8) : Dev :=
  { dDrill { chanR with loadNext := true, fetch := true, src := 0 } gBusy with
    mem := { cells := [((cellOf 0x4021).getD 0, 0x40), ((cellOf 0x4029).getD 0, 0x80), ((cellOf 0x4031).getD 0, n)].filter (fun (p : Nat × W8) => p.2 != 0) } }
/-- Two writes of the run have failed, at offsets 16 and 8. -/
def gLate : Drill := { gBusy with late := [⟨31, 0x22, 0x50, 16, false⟩, ⟨31, 0x20, 0x48, 8, false⟩] }
theorem wit_lowestFail (fs : List LateFail) : ∀ e, (Dev.lowestFail fs (some e)).isSome = true := by
  induction fs with
  | nil => intro e; rfl
  | cons f fs ih => intro e; simp only [Dev.lowestFail, List.foldl_cons]; split <;> exact ih _
theorem wit_drillAbort : ∀ len ≤ chanA.count.toNat, (((dDrill chanA gBusy).free.1).chanMove 7 31 len).err = none ∧
    (((dDrill chanA gBusy).free.1).chanMove 7 31 len).dev.pending 7 31 = [] := by decide +kernel

/-- A queue to run, a move that succeeds and one that fails, descriptors that pass and fail, aborts, a late failure. -/
theorem wit_drillRuns :
    (dDrill chan0 { queue := [31] }).frozen 39 = false ∧ (dDrill chanR gBusy).running 7 = some 31 ∧ ((dDrill chanR gBusy).chanMove 7 31 256).err = none ∧
    ((dDrill chanBad gBusy).chanMove 7 31 256).err.isSome = true ∧ (dDrill chanBad gBusy).running 7 = some 31 ∧
    ((dDesc 1).chanXlate 7 { chanR with loadNext := true, fetch := true, src := 0 } .read 0x4020).2.toOption = some 0x4020 ∧ region 0x4020 = .loam 0x4020 ∧
    ((dDesc 1).streamRead (.drill 7 31) 0 0x4020 32).2.toOption = some ([0, 0x40, 0, 0, 0, 0, 0, 0, 0, 0x80, 0, 0, 0, 0, 0, 0, 0, 1] ++ List.replicate 14 0) ∧
    (Dev.descOf chanR ([0, 0x40, 0, 0, 0, 0, 0, 0, 0, 0x80, 0, 0, 0, 0, 0, 0, 0, 1] ++ List.replicate 14 0)).1.check 0 = 0 ∧
    (Dev.descOf chanR ([0, 0x40, 0, 0, 0, 0, 0, 0, 0, 0x80, 0, 0, 0, 0, 0, 0, 0, 0] ++ List.replicate 14 0)).1.check 0 = 3 ∧
    ((dDesc 0).streamRead (.drill 7 31) 0 0x4020 32).1.chan 7 31 = (dDesc 0).chan 7 31 ∧ (dDrill chanA gBusy).running 7 = some 31 ∧ chanA.chain = true ∧ (dDrill chanR gBusy).pending 7 31 = [] ∧
    ({ chanR with ctrl := 0x200 } : Chan).bar = true ∧ Dev.lowestFail ((dDrill chanR gLate).pending 7 31) none = some (8, ⟨1, 0x20, 0⟩) ∧
    ((dDrill chanBad gLate).chanMove 7 31 256).err.isSome = true := by decide +kernel

def cvu0 : Cvu := { alg := 1, val := 0xFFFFFFFF }
def dCvu (x : Cvu) : Dev := { up with cvus := [(31, x)], dict := { rclaims := [(0xA102 * 256 + 32, 0x100)] } }

/-- Unit 31 free and attached, and an attachment that waits. -/
theorem wit_checkUnits :
    (dCvu cvu0).domOn 75 = true ∧ (dCvu cvu0).mayWriteHeld (Agent.host.orig up) ((dCvu cvu0).cvuHolder 31) = true ∧ (dCvu cvu0).frozen 31 = false ∧
    ((dCvu cvu0).cvu 31).att = none ∧ ((dCvu { cvu0 with att := some (.fold 4095) }).cvu 31).att ≠ none ∧
    ((dCvu { cvu0 with waitq := [.chan 7 31] }).cvu 31).waitq = .chan 7 31 :: [] := by decide +kernel

/-- A Standard window furrow of 64 bytes and four slots with a timeout, and one that names no quantum. -/
def fur0 : Furrow :=
  { ctx := [(0, 0x0000AA0000000007), (1, 0x0000000000000100), (2, 0x000000400030000A), (3, 0x10000), (4, 0x20000)] }
def dFur (x : Furrow) (unit : Nat) : Dev :=
  { up with furrows := [(4095, { x with ctx := x.ctx.map (fun (p : Nat × W64) => if p.1 = 1 then (1, p.2 + 0xF000000000000) else p) })]
            objs := [(0x3120 * 256 + 8, unit)], dict := { rclaims := [(0xA101 * 256 + 1, 0x407), (0xA101 * 256 + 2, 0x200)] }
            ports := [(15, { st := .up })] }
/-- A window in assembly. -/
def asmA : Asm := { id := 0, wseq := 5, bytes := 8, frames := 2 }

/-- An ENABLE that passes, one that fails in FIELD; DISABLE with no window; the quad OFF; units free, of another holder, its own. -/
theorem wit_furrowCommands :
    (dFur fur0 0).Accepts 0 1 0x3100 1 4 ∧ (dFur fur0 0xFF).Accepts 0 1 0x3120 8 1 ∧ (dFur fur0 0).Accepts 0 1 0x3120 8 1 ∧ (dFur fur0 0).domOn 68 = true ∧ (dFur fur0 0).enableCheck 4095 = 0 ∧
    (dFur fur0 0xFF).enableCheck 4095 = 6 ∧ (dFur { fur0 with st := .enabled } 0).enableCheck 4095 = 1 ∧ (dFur fur0 0xFF).unitHolder 7 = 0 ∧
    (dFur fur0 0xFF).unitHolder 1 ≠ 0 ∧ (dFur fur0 0xFF).unitHolder 1 ≠ 0x407 ∧
    (dFur { fur0 with st := .enabled } 0).furrows.any (fun y => y.1 / 512 == 7 && y.2.enabledSt && y.2.wto != 0) = true ∧
    (dFur fur0 0).furrows.any (fun y => y.1 / 512 == 7 && y.2.enabledSt && y.2.wto != 0) = false := ⟨accepts_of _ _ _ _ _ _ (by decide +kernel), accepts_of _ _ _ _ _ _ (by decide +kernel), accepts_of _ _ _ _ _ _ (by decide +kernel), by decide +kernel⟩

/-- A stream frame of window 5 with eight bytes at offset 0, padded to 60 bytes. -/
def streamFrame : List W8 :=
  [2, 0, 0, 0, 0, 9, 2, 0, 0, 0, 0, 1, 0xAA, 0, 0, 0, 0, 7, 0, 0, 0, 5, 0, 0, 0, 0, 0, 1, 0, 8, 1, 2, 3, 4, 5, 6, 7, 8] ++ List.replicate 22 0
def dFrames (x : Furrow) (g : PortEng) : Dev :=
  { dFur { x with st := .enabled } 0 with partners := { table := [(0, { st := 1, mac := 0x020000000001, port := 15 })] }, pengs := [(7, g)], alm := { mono := 20000 * 2 ^ 32 } }
def qf0 : QFrame := ⟨4095, 0, 0, 0, [1, 2, 3, 4, 5, 6, 7, 8], 60⟩
def hdr0 : StreamHdr := ⟨7, 5, 0, false, false, 8, [1, 2, 3, 4, 5, 6, 7, 8], none⟩

/-- A frame that starts a window and one that no furrow matches. -/
theorem wit_frames :
    ((dFrames fur0 {}).port 15).st = .up ∧ streamFrame.length + 4 ≤ (dFrames fur0 {}).maxFrame 15 ∧ (Dev.etherAt streamFrame).1 ≠ 0x8808 ∧
    (dFrames fur0 {}).obj 0x3030 16 < 2 ^ 31 ∧ pelzAt streamFrame ((dFrames fur0 {}).obj 0x1030 0) = none ∧ Dev.isLldp streamFrame = false ∧
    (dFrames fur0 {}).malformed 15 streamFrame = false ∧ (dFrames fur0 {}).furMatch 15 streamFrame = some 4095 ∧ (dFur fur0 0).furMatch 15 streamFrame = none ∧
    ((dFrames fur0 {}).partner 0).st = 1 ∧ ((dFrames fur0 {}).partner 0).mac = ofBE (slice streamFrame 6 6) ∧ ((dFrames fur0 {}).furrow 4095).form = 0 ∧
    ((dFrames fur0 {}).furrow 4095).cls = 0 ∧ ((dFrames fur0 {}).furrow 4095).assembling = none ∧
    (frameKey streamFrame 0).bind (fun k => streamHdr streamFrame k.2) = some hdr0 ∧ hdr0.plen ≤ ((dFrames fur0 {}).furrow 4095).wb ∧
    (∀ k ∈ (dFrames fur0 {}).furrowDoms 4095, (dFrames fur0 {}).domOn k = true) ∧ (dFrames fur0 {}).queueRoom 4095 0 streamFrame.length = true := by decide +kernel

/-- The furrow with a window: in assembly with its frame queued; closed and done. -/
def furA : Furrow := { fur0 with wins := [asmA] }
def furC : Furrow := { fur0 with wins := [{ asmA with closed := some ⟨3, 4, 5, none⟩ }] }

/-- A frame to deliver, a write to acknowledge, a window to complete, one that has timed out, releases at both ends. -/
theorem wit_windows :
    (dFrames furA { queue := [qf0] }).frozen 47 = false ∧ ((dFrames furA { queue := [qf0] }).pickFrame 7).2 = some qf0 ∧
    ((dFrames furA {}).streamWrite (.port 7 false) 0x10000 qf0.bytes).2.toOption.isSome = true ∧ (dFrames furC {}).readyWin 4095 = some ({ asmA with closed := some ⟨3, 4, 5, none⟩ }, ⟨3, 4, 5, none⟩) ∧
    ((dFrames furC {}).streamWrite (.port 7 false) 0x20000 (Dev.ledgerEntry ((dFrames furC {}).furrow 4095) 4095 5 { asmA with closed := some ⟨3, 4, 5, none⟩ } ⟨3, 4, 5, none⟩ false)).2.toOption.isSome = true ∧
    ((dFrames furA {}).furrow 4095).assembling = some asmA ∧ fur0.wto ≠ 0 ∧ (dFrames furA {}).obj 0x3120 8 ≠ 0xFF ∧ asmA.firstMono + fur0.wto * 1000 ≤ (dFrames furA {}).mono ∧
    (1 ≤ ((3 : W32) - 0).toNat ∧ ((3 : W32) - 0).toNat ≤ ((3 : W32) - 0).toNat) ∧ ¬ (1 ≤ ((4 : W32) - 0).toNat ∧ ((4 : W32) - 0).toNat ≤ ((3 : W32) - 0).toNat) := by decide +kernel

/-- Output furrow 0 of port 0, of four slots, with one posted result of four bytes. -/
def furO : Furrow :=
  { ctx := [(1, 0x2000000000000100), (2, 0x0000004000300000), (3, 0x10000), (4, 0x20000), (5, 0x4000), (6, 0x0000220000000000)], st := .enabled, Q := 1 }
def dOut (x : Furrow) (p : PortSt) : Dev :=
  { up with furrows := [(0, x)], ports := [(0, { st := p, xoff := true })], objs := [(0x3010 * 256 + 1, 0xB1050000)]
            mem := { cells := [((cellOf 0x20000).getD 0, 4)] } }

/-- Posts at both ends and past them; a slot whose port is down, one that is sent; XOFF in force. -/
theorem wit_output :
    (dOut furO .up).domOn 61 = true ∧ furO.form = 2 ∧ 1 ≤ ((1 : W32) - 0).toNat ∧ ((4 : W32) - 0).toNat ≤ furO.nslot ∧ furO.nslot < ((5 : W32) - 0).toNat ∧
    ((dOut furO .down).pickOut 0).2 = some 0 ∧ (dOut furO .down).portUp 0 = false ∧ ((dOut furO .up).pickOut 0).2 = some 0 ∧ (dOut furO .up).frozen 40 = false ∧
    furO.portNo = 0 ∧ ((dOut furO .up).egressRead 0 0x20000 8).2 = some [4, 0, 0, 0, 0, 0, 0, 0] ∧ ((dOut furO .up).egressRead 0 0x4000 34).2.isSome = true ∧
    ((dOut furO .up).egressRead 0 0x10000 4).2.isSome = true ∧ bitN ((dOut furO .up).portCfg 0) 24 = true := by decide +kernel

/-- A port of two greetings, a partner key in slot 1, and the table given; a rule admits PIDs 0x50 to 0x5F where `rule`. -/
def dPart (tok : Nat) (rule : Bool) (t : SMap Partner) (q : List Greet) : Dev :=
  { up with ports := [(15, { st := .up, tokens := tok })], partners := { table := t, queue := q }, alm := { mono := 5000000 * 2 ^ 32 }
            dict := { keys := [(1, List.replicate 32 1)], roles := [(1, 2)] }
            octs := if rule then [(0x1130 * 256 + 8, [1, 0, 0, 0x80, 0, 0, 0, 0, 0x50, 0, 0, 0, 0, 0, 0, 0, 0xF0] ++ List.replicate 7 0xFF)] else [] }
def part0 : Partner := { st := 1, port := 15, mac := 0xABC, pid := 0x55, period := 1 }
def greet0 : Greet := ⟨0xABC, 15, 0, 0x55, 20, 0, []⟩

/-- No token, a new partner with and without a rule, a heartbeat of an entry, a late entry and one just in time. -/
theorem wit_greetings :
    (dPart 0 false [] []).partnerPath 15 = true ∧ ((dPart 0 false [] []).port 15).tokens = 0 ∧ (dPart 2 false [] []).role 1 = 2 ∧ (dPart 2 false [] []).hasKey 1 = true ∧
    (dPart 2 false [] []).partnerAt 0xABC 15 = none ∧ (dPart 2 false [] []).queuedGreet 0xABC 15 = none ∧ (dPart 2 false [] []).ruleMatches 15 0x55 = false ∧
    (dPart 2 true [] []).ruleMatches 15 0x55 = true ∧ (dPart 2 true [] []).emptyPartner = some 0 ∧ (dPart 2 false [(255, part0)] []).partnerAt 0xABC 15 = some 255 ∧
    ((dPart 2 false [(255, part0)] []).partner 255).pid = 0x55 ∧ SMap.find part0.ctr 1 = none := by decide +kernel

theorem wit_partnerCommands :
    (dPart 2 false [(255, part0)] [greet0]).Accepts 0 1 0x1110 1 24 ∧ (dPart 2 false [(255, part0)] [greet0]).Accepts 0 1 0x1120 3 1 ∧
      ((dPart 2 false [] [greet0]).partner 254).st = 0 ∧ (dPart 2 false [] [greet0]).partnerAt 0xABC 15 = none ∧ ((dPart 2 false [(7, part0)] []).partner 7).st ≠ 0 ∧
      ((dPart 2 false [] []).port 15).st = .up ∧ ((dPart 2 false [] []).port 0).st ≠ .up := ⟨accepts_of _ _ _ _ _ _ (by decide +kernel), accepts_of _ _ _ _ _ _ (by decide +kernel), by decide +kernel⟩

/-! Ports, the Almanac, GPIO and Hedgerow. -/

/-- Port 0 in state `x`, with configuration `cfg`; port 2 enabled at 400G takes the lanes of quads 1 and 2 only where asked. -/
def dPort (x : Port) (cfg : Nat) : Dev :=
  { dPiste slotLive0 {} .up with ports := [(0, x)], objs := [(0x3010 * 256 + 1, cfg), (0x3010 * 256 + 3, 0xC0000000)] }
def failed (l : W32) (d : Dev) : Dev := { d with hl := { d.hl with lanesFailed := l } }

/-- A first enable, one at another RATE, one again, one whose lanes are taken, one whose lane has failed, one out of range. -/
theorem wit_portEnable :
    (dPort {} 0).Accepts 0 1 0x3010 1 4 ∧ Dev.portCfgRange 0 0xC0000000 = true ∧ Dev.portCfgRange 0 0xE0000000 = false ∧ Dev.portCfgRange 1 0xC0000000 = false ∧
    Dev.portCfgRange 0 0xD0000000 = true ∧ Dev.portCfgRange 0 0x30000000 = true ∧ (∀ l ∈ Dev.macLanes 0 4, (dPort {} 0).domOn (61 + l / 4) = true ∧ (dPort {} 0).hl.lanesFailed.getLsbD l = false) ∧
    (∀ l ∈ Dev.macLanes 0 4, (dPort {} 0).laneTaken (some 0) none l = false) ∧ (∃ l ∈ Dev.macLanes 0 5, (dPort {} 0).laneTaken (some 0) none l = true) ∧
    (∃ l ∈ Dev.macLanes 0 4, (failed 8 (dPort {} 0)).hl.lanesFailed.getLsbD l = true) := ⟨accepts_of _ _ _ _ _ _ (by decide +kernel), by decide +kernel⟩

/-- An LLDPDU of the given time to live, in a frame. -/
def lldpPdu (ttl : W8) : List W8 := [2, 2, 4, 1, 4, 2, 5, 1, 6, 2, 0, ttl, 0, 0]
def lldpFrame (ttl : W8) : List W8 := [1, 0x80, 0xC2, 0, 0, 0x0E, 2, 0, 0, 0, 0, 1, 0x88, 0xCC] ++ lldpPdu ttl ++ List.replicate 32 0

/-- Each state of a port; a live slot whose results leave by it; LLDP with and without a time to live, and malformed. -/
theorem wit_ports :
    (dPort { st := .down } 0xB7FF0000).slotLive 0 0 = true ∧ (dPort {} 0).slotPort 0 0 = 0 ∧ bitN 0xB7FF0000 25 = true ∧ bitN 0xB7FF0000 26 = true ∧ bitN 0xB7FF0000 24 = true ∧
    bitN ((dPort {} 0xB0000000).portCfg 0) 26 = false ∧ (lldpFrame 5).length + 4 ≤ (dPort {} 0xB7FF0000).maxFrame 0 ∧ Dev.isLldp (lldpFrame 5) = true ∧
    Dev.lldpTtl ((lldpFrame 5).drop 14) = some 5 ∧ Dev.lldpTtl ((lldpFrame 0).drop 14) = some 0 ∧ Dev.lldpTtl (((lldpFrame 0).set 14 4).drop 14) = none ∧
    Dev.isLldp ((lldpFrame 0).set 14 4) = true := by decide +kernel

/-- The Almanac at 10 s, with unit 7 in the mode given and CC_TIME 11 s, and ball 5 of the host. -/
def unit0 (mode : Nat) : CcUnit := { cfg := BitVec.ofNat 64 (mode + 0x500), time1 := 11, period := 100 }
def dAlm (x : CcUnit) : Dev :=
  { up with alm := { time := 10 * 10 ^ 9 * 2 ^ 32, units := [(7, x)], set0 := 1 }
            dict := { rclaims := [(0xA100 * 256 + 6, 0x100), (0xA101 * 256 + 8, 0x100)] }, hl := { up.hl with gpio := [(5, 0x400)] } }
def tAlm : Thread := { th with st := .parked, park := .ldx { load := true, reg := 4, size := 8, va := 0x1000, pa := almAddr }, priv := true }

/-- A unit passed by a STEP, one not; a compare due and one not; a capture; a thread that reads ALM_T0. -/
theorem wit_almanac :
    2 ≤ (unit0 2).mode ∧ (unit0 2).fired = false ∧ (dAlm (unit0 2)).unitHolder 7 / 256 ≠ 5 ∧ (dAlm (unit0 2)).alm.time < (unit0 2).ns * 2 ^ 32 ∧
    (unit0 2).ns * 2 ^ 32 < (12 * 10 ^ 9 : Nat) * 2 ^ 32 ∧ ({ unit0 2 with time1 := 10 } : CcUnit).ns * 2 ^ 32 ≤ (dAlm (unit0 2)).alm.time ∧
    (unit0 1).mode = 1 ∧ (unit0 1).ball < 32 ∧ (dAlm (unit0 1)).gpioFunc (unit0 1).ball = 1 ∧ (unit0 1).edge = 0 ∧ tAlm.park = .ldx { load := true, reg := 4, size := 8, va := 0x1000, pa := almAddr } := by decide +kernel

theorem wit_gpio :
    (dAlm (unit0 0)).Accepts 0 1 0xA000 6 2 ∧ (dAlm (unit0 0)).Accepts 0 1 0xA000 32 2 ∧ Dev.gpioRange 5 0x18 = true ∧ Dev.gpioRange 5 0x800 = false ∧
      (dAlm (unit0 0)).ballHolder 5 = 0x100 ∧ (dAlm (unit0 0)).ballHolder 31 ≠ 0x100 ∧ (dAlm (unit0 0)).hl.dev ≠ .safe := ⟨accepts_of _ _ _ _ _ _ (by decide +kernel), accepts_of _ _ _ _ _ _ (by decide +kernel), by decide +kernel⟩

/-- Bond 15 in state `x` with configuration `cfg`; it serves 4,096 bytes of Loam from 0x10000. -/
def dBond (x : Bond) (cfg : Nat) : Dev :=
  { up with bonds := [(15, x)], objs := [(0x3010 * 256 + 15, 0), (0x3400 * 256 + 16, cfg), (0x3404 * 256 + 16, 0x10000), (0x3405 * 256 + 16, 4096)] }

/-- An enable of two lanes, one whose lanes a port owns; training with and without its steps; widths; no progress. -/
theorem wit_bondsComeUp :
    (dBond {} 0).Accepts 0 1 0x3400 16 4 ∧ fld (2 ^ 31 + 0x18000000) 23 0 = 0 ∧ fld (2 ^ 31 + 0x18000000) 27 26 % 2 ^ 1 = 0 ∧
    (∀ l ∈ Dev.bondLanes 15 (2 ^ 31 + 0x18000000), (dBond {} 0).domOn (61 + l / 4) = true ∧ (dBond {} 0).hl.lanesFailed.getLsbD l = false ∧ (dBond {} 0).laneTaken none (some 15) l = false) ∧
    (∃ l ∈ Dev.bondLanes 15 (2 ^ 31 + 0x18000000), ({ dBond {} 0 with objs := [(0x3010 * 256 + 16, 0xB0000000)] } : Dev).laneTaken none (some 15) l = true) ∧
    (dBond {} 0).obj 0x3403 16 = 0 ∧ fld 0x99000000 25 24 = 1 := ⟨accepts_of _ _ _ _ _ _ (by decide +kernel), by decide +kernel⟩

/-- A bond that is UP, has received 4095 and sent 1 and 2, both not acknowledged, with credits for `q` units each way. -/
def bond0 (q : Nat) : Bond :=
  { st := .up, lanes := 2, txSeq := 2, ranks := [60, 61], unit := 3, rxSeq := 4095, crq := q, crs := q, reads := [⟨7, .thread 0 0, 8⟩], writers := [(0x40, .thread 0 0), (0x48, .host)]
    replay := [⟨1, 2, 0x40, 0, 0, 8, [1, 2, 3, 4, 5, 6, 7, 8], none⟩, ⟨2, 1, 0, 7, 0, 8, [], none⟩] }
def ctl1 : Ctl := ⟨1, 3, 4⟩
def opP : MemOp := { load := true, reg := 7, size := 8, va := 0, pa := Dev.peerBase 15 }
def dTraffic (x : Bond) : Dev := { dBond x 0x98000000 with threads := [(0, { th with st := .parked, park := .ldx opP })] }

/-- One packet acknowledged of two; number 4096 wraps to 0; a READ with credits and without; an offset past what is served. -/
theorem wit_bondTraffic :
    (bond0 9).acked < 4096 ∧ 1 ≤ (bond0 9).replay.length ∧ ctl1.ack = ((bond0 9).acked + 1) % 4096 ∧ (bond0 9).txq = [] ∧ (bond0 9).rxSeq < 4096 ∧
    (0 : Nat) = ((bond0 9).rxSeq + 1) % 4096 ∧ ((dTraffic (bond0 9)).inbound 15 4088 8).toOption = some 0x10FF8 ∧
    ((dTraffic (bond0 9)).inbound 15 4089 8).toOption = none ∧ (((dTraffic (bond0 9)).setBond 15 ((bond0 9).takes 0 1 1 ctl1 false)).memRead (.port 7 false) 0 0x10FF8 8).2.toOption = some (List.replicate 8 0) ∧
    ((HPacket.mk 0 0x81 0 5 0 8 (List.replicate 8 0) none).units ≤ ((bond0 9).takes 0 1 1 ctl1 false).crs) ∧
    (((bond0 0).takes 0 1 1 ⟨1, 0, 0⟩ false).crs < (HPacket.mk 0 0x81 0 5 0 8 (List.replicate 8 0) none).units) ∧
    (((dTraffic (bond0 9)).setBond 15 ((bond0 9).takes 0 2 1 ctl1 false)).memWrite 0x10FF8 [1, 2, 3, 4, 5, 6, 7, 8]).2.toOption.isSome = true ∧
    (bond0 9).reads.find? (fun r => r.tag == 7) = some ⟨7, .thread 0 0, 8⟩ ∧ ((dTraffic (bond0 9)).thread 0 0).park = .ldx opP ∧
    (∀ i ∈ (dTraffic (bond0 9)).threads, i.1 = 0) ∧ (bond0 9).reads.find? (fun r => r.tag == 6) = none ∧
    SMap.find (bond0 9).writers 0x40 = some (.thread 0 0) ∧ SMap.find (bond0 9).writers 0x48 = some .host := by decide +kernel

/-! PCIe, registers, power, resets, the debug unit. -/

/-- A thread that waits for outbound read 7; a pending message of vector 3. -/
def dPcie : Dev :=
  { up with threads := [(0, { th with st := .parked, park := .ldx opL })]
            pcie := { up := true, busMaster := true, msixEn := true, pba := [(3, true)], reads := [⟨7, .thread 0 0, 0x40, 8⟩] }
            dict := { sessions := [(0, { seq := some 4 }), (5, {})], oclaims := [⟨1, 0, 5⟩, ⟨2, 5, 5⟩], mbReq := [(3, 1)], mbResp := [(0x7FF, 9)] } }

/-- Accesses of BAR2 that succeed and fail; the mailbox's areas at their ends; AtomicOps aligned and not; D3; a read that waits. -/
theorem wit_pcie :
    dPcie.hostReaches = true ∧ dPcie.pcie.d3 = false ∧ (dPcie.busWrite .host 0x4000 [1, 2]).2.toOption.isSome = true ∧
    (dPcie.busWrite .host 0xFFFFFFFF8 [1, 2]).2.toOption = none ∧ (dPcie.busRead .host 0 0x4000 16).2.toOption.isSome = true ∧
    (dPcie.busRead .host 0 0xFFFFFFFF8 8).2.toOption = none ∧ (0x1000 : Nat) + 0x800 ≤ 0x1800 ∧ (dPcie.bankDo .host 0 0 8 0x4000 5 0).2.toOption = some 0 ∧
    (0x4004 : Nat) % 8 ≠ 0 ∧ dPcie.pcie.msixEn = true ∧ dPcie.pcie.funcMask = false ∧ dPcie.pcie.pba.get false 3 = true ∧ dPcie.pcie.pba.get false 0x7FF = false ∧
    dPcie.pcie.reads.find? (fun y => y.tag == 7) = some ⟨7, .thread 0 0, 0x40, 8⟩ ∧ (dPcie.thread 0 0).park = .ldx opL ∧ dPcie.pcie.reads.head? = some ⟨7, .thread 0 0, 0x40, 8⟩ ∧
    up.pcie.reads = [] ∧ ({ up with pcie := {} } : Dev).pcie.up = false ∧ ({ up with doms := onDoms.put 69 {} } : Dev).domOn 69 = false ∧
    ({ up with pcie := { up := true, d3 := true } } : Dev).hostReaches = true ∧ ({ up with pcie := {} } : Dev).hostReaches = false := by decide +kernel

/-- A write that the device region takes and one it refuses, by the host, the debug path and a thread; config space. -/
theorem wit_registerWrites :
    (up.busWrite (Agent.host.orig up) (0xB00000000 + (0x1100008 + 0x20 * 0x7FE)) (toLE 8 5)).2.toOption.isSome = true ∧
    (up.busWrite (Agent.host.orig up) (0xB00000000 + 0x3FFFFF8) (toLE 8 5)).2.toOption = none ∧ up.hostReaches = true ∧ up.domOn 70 = true := by decide +kernel

/-- Every domain ON but domain `k`, which is as given, in the device state given. -/
def dDom (k : Nat) (x : Domain) (st : DevSt) : Dev := { up with doms := onDoms.put k x, hl := { dev := st, time := 1000 } }
def fallow : Dev := { up with doms := [(0, { st := .on })], hl := { dev := .fallow, boot := 3 } }

/-- Domain 75 OFF, ON, WAKING; domain 1 whose quadrant is OFF; domain 49 that domain 1 needs; a stack for retention. -/
theorem wit_domainRequests :
    (dDom 75 {} .run).Accepts 0 1 0x2010 76 1 ∧ (dDom 49 {} .run).Accepts 0 1 0x2010 2 1 ∧ (dDom 75 {} .run).Accepts 0 1 0x2010 61 1 ∧ (dDom 75 {} .run).hl.serving ∧
    (∀ m ∈ needs 75, (dDom 75 {} .run).domOn m = true) ∧ (∃ m ∈ needs 1, (dDom 49 {} .run).domOn m = false) ∧ neededBy 75 = [] ∧
    (∃ m ∈ neededBy 49, (dDom 75 {} .run).domOn m = true) ∧ (dDom 75 {} .run).domOn (53 + 7) = true ∧ (dDom 60 {} .run).domOn (53 + 7) = false := ⟨accepts_of _ _ _ _ _ _ (by decide +kernel), accepts_of _ _ _ _ _ _ (by decide +kernel), accepts_of _ _ _ _ _ _ (by decide +kernel), .inr (.inr rfl), by decide +kernel⟩

/-- The device in RUN, in FALLOW, in SAFE, and with a request in progress; the wake timer. -/
theorem wit_deviceRequests :
    up.Accepts 0 1 0x2001 0 1 ∧ fallow.Accepts 5 1 0x2001 0 1 ∧ up.hl.serving ∧ up.hl.devOpen = false ∧ up.hl.dev ≠ .fallow ∧ fallow.hl.dev = .fallow ∧
      bootPath fallow.hl.boot = [] ∧ fallow.hl.falling = false ∧ fallow.hl.leaving = false ∧ fallow.hl.dwake = false ∧ (∀ k ∈ domOrder, fallow.activeDom k = false) := ⟨accepts_of _ _ _ _ _ _ (by decide +kernel), accepts_of _ _ _ _ _ _ (by decide +kernel), .inr (.inr rfl), by decide +kernel⟩

def waking (l r : Bool) : Domain := { st := .waking, locked := l, fromRet := r, ramping := true, rampAt := 0 }

/-- A turn free and none free; each end of a wake and of a power-down; a rail monitored; losses with and without dependents. -/
theorem wit_domainsChange :
    domOrder.find? (fun k => ((dDom 75 { waiting := true } .run).dom k).waiting && (((dDom 75 { waiting := true } .run).dom k).st == .off || ((dDom 75 { waiting := true } .run).dom k).st == .lost) &&
      (needs k).all (dDom 75 { waiting := true } .run).domOn) = some 75 ∧
    (domOrder.filter (fun k => ((dDom 75 { waiting := true } .run).dom k).ramping && !((dDom 75 { waiting := true } .run).dom k).monitored 1000)).length = 0 ∧
    (domOrder.filter (fun k => (({ dDom 75 { waiting := true } .run with doms := (List.range' 1 8).foldl (fun (m : SMap Domain) k => m.put k { st := .waking, ramping := true, rampAt := 999 }) (onDoms.put 75 { waiting := true }) } : Dev).dom k).ramping &&
      !(({ dDom 75 { waiting := true } .run with doms := (List.range' 1 8).foldl (fun (m : SMap Domain) k => m.put k { st := .waking, ramping := true, rampAt := 999 }) (onDoms.put 75 { waiting := true }) } : Dev).dom k).monitored 1000)).length = 8 ∧
    (waking true false).st = .waking ∧ (∀ m ∈ neededBy 75, (dDom 75 {} .run).activeDom m = false) ∧ (∃ m ∈ neededBy 49, (dDom 49 { st := .sleeping } .run).activeDom m = true) ∧
    (waking true false).monitored 64 = true ∧ (waking true false).monitored 63 = false ∧ hasPll 53 = true ∧ hasPll 70 = true ∧ hasPll 71 = false ∧
    (dDom 75 {} .run).hl.dev ≠ .cold ∧ (dDom 75 {} .run).hl.por = false := by decide +kernel

/-- A sample with sensor 1 at `r` sixteenths of a degree and the others at 20 degrees, a threshold of 90 degrees. -/
def sample (r : W16) : List W16 := r :: List.replicate 16 320
def dTemp (r : W16) (thr : BitVec 2) : Dev :=
  { dPiste slotLive0 {} .up with objs := [(0x9031 * 256, 90), (0x9033 * 256, 1)], hl := { up.hl with temps := (List.range 17).map (fun i => (i + 1, (sample r).getD i 0)), throttle := thr, hot := if r = 1760 then some 1 else none } }

theorem wit_temperature :
    (sample 1760).length = 17 ∧ (dTemp 1441 0).hottest = some 1441 ∧ (dTemp 1440 1).hottest = some 1440 ∧ (dTemp 1391 1).hottest = some 1391 ∧
    sx 8 ((dTemp 1441 0).obj 0x9031 0) * 16 = 1440 ∧ (dTemp 1441 0).obj 0x9033 0 ≠ 0 ∧ (dTemp 1441 0).slotLive 0 0 = true ∧ (dTemp 1760 0).hl.hot = some 1 ∧
    ({ dTemp 1441 0 with objs := [(0x9033 * 256, 0)] } : Dev).obj 0x9033 0 = 0 := by decide +kernel

/-- A watchdog of 20 ms with a warning at 5 ms, and `left` hc to go. -/
def dWd (left : Nat) (rst : BitVec 2) : Dev :=
  { up with hl := { up.hl with wdCfg := 0x80050014, wdRun := true, wdLeft := left, rstReq := rst, rstOpen := rst } }

/-- Configurations at both ends and past them; an enabled watchdog and the main host; the warning and the end of the count. -/
theorem wit_watchdog :
    up.Accepts 5 1 0x2040 0 4 ∧ up.Accepts 0 1 0x2041 0 4 ∧ up.Accepts 0 1 0x2030 0 1 ∧ (dWd 1 0).Accepts 0 1 0x2040 0 4 ∧
    (10 ≤ fld 0x8009000A 15 0 ∧ fld 0x8000EA60 15 0 = 60000 ∧ fld 0x8009000A 29 16 < fld 0x8009000A 15 0) ∧ ¬ (10 ≤ fld 0x80000009 15 0) ∧
    (dWd 20000 0).hl.wdRun = true ∧ (dWd 20000 0).wdFrozen = false ∧ fld (dWd 20000 0).hl.wdCfg.toNat 29 16 = 5 ∧ (dWd 0 0).hl.wdLeft = 0 ∧ (dWd 0 1).hl.rstReq ≠ 0 ∧ up.hl.wdRun = false := ⟨accepts_of _ _ _ _ _ _ (by decide +kernel), accepts_of _ _ _ _ _ _ (by decide +kernel), accepts_of _ _ _ _ _ _ (by decide +kernel), accepts_of _ _ _ _ _ _ (by decide +kernel), by decide +kernel⟩

def dCold (st : Stage) (run : Bool) (n : Nat) (g : W8) (cold : Bool) : Dev :=
  { up with doms := onDoms, hl := { dev := if cold then .cold else .held, stage := st, lbistRun := run, groupsRun := n, groups := g, boot := 3, resetLow := !cold, temps := [(17, 1600)] } }
theorem wit_spares : (∀ b < 16, (dCold .memory false 0 0 true).granBank 95 b + 0 ≤ 4) ∧
    4 < (dCold .memory false 0 0 true).granBank 95 15 + 5 ∧ (∀ b < 256, (dCold .memory false 0 0 true).loamBank 7 b + 4 ≤ 4) ∧
    4 < (dCold .memory false 0 0 true).loamBank 7 255 + 5 := by
  refine ⟨fun b _ => ?_, ?_, fun b _ => ?_, by decide +kernel⟩
  · show (Config.fuse (16 * 95 + b)).toNat % 5 + 0 + 0 ≤ 4; omega
  · show 4 < (Config.fuse (16 * 95 + 15)).toNat % 5 + 0 + 5; omega
  · show 0 + 4 ≤ 4; omega

/-- A pulse of 500 ns and one of 99; each stage of start-up; the last group with and without a failure. -/
theorem wit_reset :
    up.hl.resetLow = false ∧ up.hl.por = false ∧ (dCold .straps false 0 0 false).hl.dev = .held ∧ (dCold .straps false 0 0 false).hl.resetLow = true ∧
    ({ hl := { por := true } } : Dev).hl.por = true ∧ (dCold .straps false 0 0 true).hl.stage = .straps ∧ (dCold .temp true 0 0 true).reading 17 = 1600 ∧ sx 16 1600 ≤ 1600 ∧ 1600 < sx 16 1601 ∧
    (0x7F ||| BitVec.ofNat 8 (2 ^ 7) : W8) = 0xFF ∧ (dCold .logic true 7 0x7F true).hl.groupsRun = 7 ∧ (dCold .memory true 0 0 true).hl.loopDone = false := by decide +kernel

def thH : Thread := { th with st := .halted }
def dDbg (x : Thread) (y : Tiller) : Dev := { withThread x with tillers := [(0, y)] }

/-- Debug accesses that succeed and fail, of the debug space and of memory; a halted thread and one that is not. -/
theorem wit_debug :
    up.dbgSelected = true ∧ ({} : Dev).dbgSelected = false ∧ (up.spaceRead 0x200008).toOption = some 0 ∧ (up.spaceRead 0x3F0000).toOption = none ∧ (up.spaceWrite 0x200008 5).toOption.isSome = true ∧
    (up.spaceWrite 0x3F0000 5).toOption = none ∧ (up.busRead .debug 0 0x4000 8).2.toOption = some (List.replicate 8 0) ∧ (up.busRead .debug 0 0xFFFFFFFF8 8).2.toOption = none ∧
    (up.busWrite .debug 0x4000 (toLE 4 7)).2.toOption.isSome = true ∧ thH.halted = true ∧ th.halted = false ∧ ballControl 3 = true ∧ ballControl 2 = false ∧
    (∀ k : Fin 4, ({ ttctl := 1 } : Tiller).ttctl.getLsbD k = true → ((dDbg thH { ttctl := 1 }).thread 0 k).halted = true) ∧
    ({ ttctl := 1 } : Tiller).ttctl.getLsbD 0 = true ∧ ((dDbg th { ttctl := 1 }).thread 0 0).halted = false := by decide +kernel

theorem wit_debugLock :
    up.Accepts 0 1 0x9010 0 1 ∧ ((withThread thH).thread 0 0).st = .halted := ⟨accepts_of _ _ _ _ _ _ (by decide +kernel), by decide +kernel⟩

/-- A word that moves G3 to G2, and EXT 5, at pc 5 of tiller 0; a breakpoint there; one trigger on its way. -/
def movWord : BitVec 14 := encodeSeq (.mov 2 3)
def extWord : BitVec 14 := encodeSeq (.ext 5)
def dRun (x : Thread) : Dev :=
  { dDbg x { bp0 := 0x80010005 } with
    dbg := { up.dbg with trig := 1, dxIn0 := 1, dxOut0 := 1 }
    mem := { cells := [(pmCell 0 10, BitVec.ofNat 8 (Dev.container movWord).toNat), (pmCell 0 11, BitVec.ofNat 8 ((Dev.container movWord).toNat / 256))] } }

theorem wit_runControl :
    (dRun thH).tillerOn 0 = true ∧ (dRun thH).debugClosed = false ∧ (dRun thH).dbgSelected = true ∧ th.ext = [] ∧ th.towo = false ∧
    ({ th with st := .parked, park := .claim 1 } : Thread).abandons = false ∧ decodeSeq (((dRun thH).wordAt 0 0 5).setWidth 14) = some (.mov 2 3) ∧
    Dev.parityOk ((dRun thH).wordAt 0 0 5) = true ∧ (dRun thH).deliverable 0 0 = none ∧ decodeSeq 0x1C0B = none ∧ decodeSeq movWord = some (.mov 2 3) ∧
    decodeSeq extWord = some (.ext 5) ∧ (dRun th).bpHit 0 0 th.pc = true ∧ th.dbg.passBp = false ∧ (dRun th).dbg.trig ≠ 0 ∧
    Dev.tillerBit (dRun th).dbg.dxIn0 (dRun th).dbg.dxIn1 0 = true ∧ up.dbg.trig = 0 := by decide +kernel

/-! The queue, words and memory. -/

/-- A word that decodes; registers that R143 and R174 treat apart. -/
theorem wit_words :
    decodeSeq 0x3FFF = some (.ext 0x3FF) ∧ encodeSeq (.ext 0x3FF) = 0x3FFF ∧ ({ th with fb := true } : Thread).rd 24 = ({ th with fb := true } : Thread).f.get 0 0 := by decide +kernel

/-- An empty queue, and memory in canonical form before a step that answers a next state. -/
theorem wit_queue :
    State.reset.pending = [] ∧ State.reset.dev.mem.wf = true ∧ (match step { State.reset with pending := [.porAssert] } with | .next s => decide (s.dev.mem.wf = true ∧ s.pending = []) | _ => false) = true := by decide +kernel

end Sys2Proof.Tests
end

section
/-! Registers of a thread: reading after writing, in both banks and through pairs (R143, R174). -/

namespace Sys2Proof.Machine.Thread

variable (x : Thread) {r q : Nat} (v : W32)

@[simp] theorem rd_zero : x.rd 0 = 0 := rfl

@[simp] theorem wr_zero : x.wr 0 v = x := rfl

/-- The test for the f bank fails where no fast handler runs, and below g24. -/
theorem fBank_eq_false (h : x.fb = false ∨ r < 24) : (x.fb && decide (24 ≤ r)) = false := by
  rcases h with h | h <;> simp [h]

theorem rd_of_fBank (hfb : x.fb = true) (hr : 24 ≤ r) : x.rd r = x.f.get 0 (r - 24) := by
  have : r ≠ 0 := by omega
  simp [rd, *]

theorem rd_of_gBank (h : x.fb = false ∨ r < 24) (hr : r ≠ 0) : x.rd r = x.g.get 0 r := by
  simp [rd, hr, x.fBank_eq_false h]

theorem wr_of_fBank (hfb : x.fb = true) (hr : 24 ≤ r) : x.wr r v = { x with f := x.f.put (r - 24) v } := by
  have : r ≠ 0 := by omega
  simp [wr, *]

theorem wr_of_gBank (h : x.fb = false ∨ r < 24) (hr : r ≠ 0) : x.wr r v = { x with g := x.g.put r v } := by
  simp [wr, hr, x.fBank_eq_false h]

/-- A register number lies in the f bank or in the g bank. -/
theorem fBank_or_gBank (r : Nat) : (x.fb = true ∧ 24 ≤ r) ∨ (x.fb = false ∨ r < 24) := by
  cases x.fb <;> simp; omega

@[simp] theorem wr_fb (r : Nat) : (x.wr r v).fb = x.fb := by
  unfold wr; split_ifs <;> rfl

/-- A write outside the f bank leaves it. -/
theorem wr_f_of_gBank (h : x.fb = false ∨ r < 24) : (x.wr r v).f = x.f := by
  by_cases hr : r = 0
  · simp [hr]
  · rw [x.wr_of_gBank v h hr]

/-- Every register but g0 reads back what is written (R143). -/
theorem rd_wr_self (hr : r ≠ 0) : (x.wr r v).rd r = v := by
  rcases x.fBank_or_gBank r with ⟨hfb, h24⟩ | hg
  · rw [rd_of_fBank _ (by simpa) h24, x.wr_of_fBank v hfb h24]; simp
  · rw [rd_of_gBank _ (by simpa) hr, x.wr_of_gBank v hg hr]; simp

/-- A write leaves every other register. -/
theorem rd_wr_of_ne (h : q ≠ r) : (x.wr r v).rd q = x.rd q := by
  by_cases hr : r = 0
  · simp [hr]
  by_cases hq : q = 0
  · simp [hq]
  rcases x.fBank_or_gBank q with ⟨hfb, h24⟩ | hg
  · rw [rd_of_fBank _ (by simpa) h24, x.rd_of_fBank hfb h24]
    rcases x.fBank_or_gBank r with ⟨-, hr24⟩ | hrg
    · rw [x.wr_of_fBank v hfb hr24]; exact SMap.get_put_of_ne _ _ _ (by omega)
    · rw [x.wr_f_of_gBank v hrg]
  · rw [rd_of_gBank _ (by simpa) hq, x.rd_of_gBank hg hq]
    rcases x.fBank_or_gBank r with ⟨hfb, hr24⟩ | hrg
    · rw [x.wr_of_fBank v hfb hr24]
    · rw [x.wr_of_gBank v hrg hr]; exact SMap.get_put_of_ne _ _ _ h

/-! Pairs. -/

/-- A write of a pair is a write of each half. -/
theorem wrPair_eq (n : Nat) (w : W64) :
    x.wrPair n w = (x.wr (2 * n) (w.extractLsb' 0 32)).wr (2 * n + 1) (w.extractLsb' 32 32) := by
  rw [wrPair, BitVec.setWidth_eq_extractLsb' (by omega), BitVec.setWidth_ushiftRight_eq_extractLsb]

theorem rdPair_high (n : Nat) : (x.rdPair n).extractLsb' 32 32 = x.rd (2 * n + 1) :=
  BitVec.extractLsb'_append_eq_left

theorem rdPair_low (n : Nat) : (x.rdPair n).extractLsb' 0 32 = x.rd (2 * n) :=
  BitVec.extractLsb'_append_eq_right

/-- Every pair but d0 reads back what is written. -/
theorem rdPair_wrPair_self {n : Nat} (hn : n ≠ 0) (w : W64) : (x.wrPair n w).rdPair n = w := by
  have hhigh : (x.wrPair n w).rd (2 * n + 1) = w.extractLsb' 32 32 := by
    rw [wrPair_eq, rd_wr_self _ _ (by omega)]
  have hlow : (x.wrPair n w).rd (2 * n) = w.extractLsb' 0 32 := by
    rw [wrPair_eq, rd_wr_of_ne _ _ (by omega), rd_wr_self _ _ (by omega)]
  rw [rdPair, hhigh, hlow]
  exact BitVec.extractLsb'_append_extractLsb'

/-- A write of a pair leaves every register outside it. -/
theorem rd_wrPair_of_ne {n : Nat} (h : q / 2 ≠ n) (w : W64) : (x.wrPair n w).rd q = x.rd q := by
  rw [wrPair_eq, rd_wr_of_ne _ _ (by omega), rd_wr_of_ne _ _ (by omega)]

/-- Of d0 a write reaches only g1 (R174). -/
theorem wrPair_zero (w : W64) : x.wrPair 0 w = x.wr 1 (w.extractLsb' 32 32) := by
  simp [wrPair_eq]

end Sys2Proof.Machine.Thread
end

section
/-! RTE of a fast handler (R143, R353). -/

namespace Sys2Proof.Machine

/-- The thread after RTE of a fast handler: the saved status and pc, and the f bank put away (R353). -/
def Thread.fastReturned (x : Thread) : Thread :=
  { x.loadStatus x.festat with fb := false, pc := x.fepc.setWidth 14, pf := [] }

/-- Where the interrupted code runs, g24 to g31 are its own values again (R143). -/
theorem Thread.rd_fastReturned (x : Thread) {r : Nat} (hr : r ≠ 0) : x.fastReturned.rd r = x.g.get 0 r :=
  Thread.rd_of_gBank _ (.inl rfl) hr

namespace Dev

/-- The branch trace of a thread writes its tiller alone, if anything (R566). -/
theorem traceRec_cases (d : Dev) (t k kind : Nat) (src dst : BitVec 14) :
    d.traceRec t k kind src dst = d ∨ ∃ y, d.traceRec t k kind src dst = d.setTiller t y := by
  simp only [traceRec]
  split
  · exact .inl rfl
  · exact .inr ⟨_, rfl⟩

@[simp] theorem traceRec_thread (d : Dev) (t k kind : Nat) (src dst : BitVec 14) (t' k' : Nat) :
    (d.traceRec t k kind src dst).thread t' k' = d.thread t' k' := by
  rcases d.traceRec_cases t k kind src dst with h | ⟨y, h⟩
  · rw [h]
  · rw [h]; rfl

@[simp] theorem traceRec_dbg (d : Dev) (t k kind : Nat) (src dst : BitVec 14) :
    (d.traceRec t k kind src dst).dbg = d.dbg := by
  rcases d.traceRec_cases t k kind src dst with h | ⟨y, h⟩
  · rw [h]
  · rw [h]; rfl

@[simp] theorem inForce_traceRec (d : Dev) (t k kind : Nat) (src dst : BitVec 14) :
    (d.traceRec t k kind src dst).inForce = d.inForce := by
  rcases d.traceRec_cases t k kind src dst with h | ⟨y, h⟩
  · rw [h]
  · rw [h]; rfl

/-- The device after RTE of a fast handler. -/
def fastReturn (d : Dev) (t k : Nat) : Dev :=
  (d.traceRec t k 2 (d.thread t k).ipc ((d.thread t k).fepc.setWidth 14)).setThread t k (d.thread t k).fastReturned

@[simp] theorem fastReturn_thread (d : Dev) (t k : Nat) : (d.fastReturn t k).thread t k = (d.thread t k).fastReturned := by
  simp [fastReturn]

@[simp] theorem fastReturn_dbg (d : Dev) (t k : Nat) : (d.fastReturn t k).dbg = d.dbg := by simp [fastReturn]

@[simp] theorem inForce_fastReturn (d : Dev) (t k : Nat) : (d.fastReturn t k).inForce = d.inForce := by
  rw [fastReturn, inForce_setThread _ _ _ _ (by rw [traceRec_thread]; rfl), inForce_traceRec]

/-- RTE in a fast handler whose check passes (R353). -/
theorem rte_of_fast {d : Dev} {t k : Nat} (hfb : (d.thread t k).fb = true)
    (hcheck : (d.thread t k).festat.getLsbD 13 = true → (d.thread t k).fepriv.getLsbD 0 = true) :
    d.rte t k = (d.fastReturn t k, none) := by
  have h : ((d.thread t k).festat.getLsbD 13 && !(d.thread t k).fepriv.getLsbD 0) = false := by
    cases hs : (d.thread t k).festat.getLsbD 13
    · rfl
    · simp [hcheck hs]
  simp only [rte, hfb, h, if_true]; rfl

/-- What RTE gives in a fast handler, whole (R196, R353). -/
theorem gives_rte_of_fast {s : State} {t : Fin 96} {k : Fin 4} (hc : CanIssue s.dev t k) (hx : NoExt s.dev t k)
    (hp : (s.dev.thread t k).priv = true) (hfb : (s.dev.thread t k).fb = true)
    (hcheck : (s.dev.thread t k).festat.getLsbD 13 = true → (s.dev.thread t k).fepriv.getLsbD 0 = true) :
    Gives (.rte t k 0) s ((s.dev.issued t k).fastReturn t k) := by
  have hbody : (s.dev.issued t k).runOp t k (s.dev.thread t k).ext (.rte 0) = (s.dev.issued t k).fastReturn t k := by
    have hrte : (s.dev.issued t k).rte t k = ((s.dev.issued t k).fastReturn t k, none) :=
      rte_of_fast (by rw [issued_thread]; exact hfb) (by rw [issued_thread]; exact hcheck)
    have hp' : ((s.dev.issued t k).thread t k).priv = true := by rw [issued_thread]; exact hp
    simp [runOp, opRte, hrte, hp']
  have hhalt : (((s.dev.issued t k).fastReturn t k).thread t k).dbg.haltReq = 0 := by
    rw [fastReturn_thread, issued_thread]; exact hc.noHalt
  have hfreeze : s.dev.settleFreeze ((s.dev.issued t k).fastReturn t k) = (s.dev.issued t k).fastReturn t k :=
    settleFreeze_of_same _ _ (by simp) (by rw [fastReturn_dbg]; rfl)
  have hexec : exec (.rte t k 0) s = s.act (fun d => d.issueOp t k (.rte 0)) := rfl
  rw [Gives, hexec, State.act, issueOp_of_canIssue hc (.inl hx), hbody, settle_of_noHalt _ _ _ hhalt, hfreeze]

end Dev

/-- Settles O5: each clause by the bank that the register lies in, and RTE by the thread it leaves. -/
theorem registerFile : Obligations.RegisterFile := by
  refine ⟨fun x r q v => ?_, fun x n q v => ?_, ?_⟩
  · have val_ne_zero (h : r ≠ 0) : r.val ≠ 0 := Fin.val_ne_zero_iff.2 h
    refine ⟨x.rd_zero, x.wr_zero v, fun h => x.rd_wr_self v (val_ne_zero h),
      fun h => x.rd_wr_of_ne v (Fin.val_ne_of_ne h), ?_, ?_⟩
    · intro hfb h24
      rw [x.wr_of_fBank v hfb h24]
      exact ⟨rfl, x.rd_of_fBank hfb h24, rfl⟩
    · intro hg
      exact ⟨x.wr_f_of_gBank v hg, fun h => x.rd_of_gBank hg (val_ne_zero h)⟩
  · exact ⟨x.rdPair_high n, x.rdPair_low n, fun h => x.rdPair_wrPair_self (Fin.val_ne_zero_iff.2 h) v,
      fun h => x.rd_wrPair_of_ne h v, x.wrPair_zero v⟩
  · rintro s t k x hc hx rfl hp hfb hcheck
    refine ⟨_, Dev.gives_rte_of_fast hc hx hp hfb hcheck, fun r hr => ?_⟩
    rw [Dev.fastReturn_thread, Thread.rd_fastReturned _ (by omega), Dev.issued_thread]

end Sys2Proof.Machine
end

section
/-! Shifts and rotates (R180, R182, R183). -/

namespace Sys2Proof.Machine

namespace Thread

variable (x : Thread) (r : Nat) (v : W32)

/-! A write of a register leaves what is no register. -/

@[simp] theorem wr_dbg : (x.wr r v).dbg = x.dbg := by unfold wr; split_ifs <;> rfl
@[simp] theorem wr_halted : (x.wr r v).halted = x.halted := by unfold wr; split_ifs <;> rfl
@[simp] theorem wr_c : (x.wr r v).c = x.c := by unfold wr; split_ifs <;> rfl

/-- The thread after register `a` is shifted by `n`: the carry stays where the shift gives none. -/
def shifted (a n : Nat) (o : Shift) : Thread :=
  { x.withZN a (o.run (x.rd a) n).1 with c := (o.run (x.rd a) n).2.getD x.c }

/-- A count of zero only sets Z and N (R183). -/
theorem shifted_zero (a : Nat) (o : Shift) : x.shifted a 0 o = x.withZN a (x.rd a) := by
  simp [shifted, Shift.run, withZN]

/-- Any other count gives a result and its carry. -/
theorem shifted_of_run {a n : Nat} {o : Shift} {w : W32} {c : Bool} (h : o.run (x.rd a) n = (w, some c)) :
    x.shifted a n o = { x.withZN a w with c := c } := by
  simp [shifted, h]

@[simp] theorem shifted_dbg (a n : Nat) (o : Shift) : (x.shifted a n o).dbg = x.dbg := x.wr_dbg a _

@[simp] theorem shifted_halted (a n : Nat) (o : Shift) : (x.shifted a n o).halted = x.halted := x.wr_halted a _

end Thread

namespace Dev

theorem opShift_eq (d : Dev) (t k a b : Nat) (o : Shift) :
    d.opShift t k a b o = d.modThread t k (fun x => x.shifted a ((x.rd b).toNat % 32) o) := by
  unfold opShift
  congr 1
  funext x
  cases h : (o.run (x.rd a) ((x.rd b).toNat % 32)).2 <;>
    simp [Thread.shifted, h, Thread.withZN, Thread.setZN, BitVec.msb_eq_getLsbD_last, beq_eq_decide]

/-- Taking a word leaves every register. -/
@[simp] theorem issued_rd (d : Dev) (t k r : Nat) : ((d.issued t k).thread t k).rd r = (d.thread t k).rd r := by
  rw [issued_thread]; rfl

/-- What a shift by the low five bits of a register gives, whole. -/
theorem gives_shift {s : State} {t : Fin 96} {k : Fin 4} {op : SeqOp} {a b : Nat} {o : Shift} {f : Thread → Thread}
    (hc : CanIssue s.dev t k) (hx : NoExt s.dev t k)
    (hop : ∀ d : Dev, d.runOp t k [] op = d.opShift t k a b o) (hstep : ∀ d : Dev, d.seqStep t k op = d.issueOp t k op)
    (hf : ∀ x : Thread, x.shifted a (((s.dev.thread t k).rd b).toNat % 32) o = f x) :
    Gives (op.cmd t k) s (s.dev.issuedThen t k f) := by
  obtain rfl : (fun x => x.shifted a (((s.dev.thread t k).rd b).toNat % 32) o) = f := funext hf
  refine gives_of_body _ _ hc (by rw [exec_cmd]; congr 1; exact funext hstep) (.inl hx) ?_ (by simp [issued_thread])
    (by rw [Thread.shifted_halted, issued_halted])
  rw [hx, hop, opShift_eq, issuedThen, modThread, issued_rd, modThread]

end Dev

/-- Settles O9: the four shifts are one operation, by the count of zero and by any other. -/
theorem shiftsAndRotates : Obligations.ShiftsAndRotates := by
  rintro s t k hc hx a b n rfl
  refine ⟨fun hn c hmem => ?_, fun hn => ⟨?_, ?_, ?_, ?_⟩⟩
  · simp only [List.mem_cons, List.not_mem_nil, or_false] at hmem
    have hzero (o : Shift) (x : Thread) : x.shifted a.toNat (((s.dev.thread t k).rd b.toNat).toNat % 32) o =
        x.withZN a.toNat (x.rd a.toNat) := by rw [hn]; exact x.shifted_zero _ _
    rcases hmem with rfl | rfl | rfl | rfl
    · exact Dev.gives_shift (op := .shl a b) hc hx (fun _ => rfl) (fun _ => rfl) (hzero .shl)
    · exact Dev.gives_shift (op := .shr a b) hc hx (fun _ => rfl) (fun _ => rfl) (hzero .shr)
    · exact Dev.gives_shift (op := .sar a b) hc hx (fun _ => rfl) (fun _ => rfl) (hzero .sar)
    · exact Dev.gives_shift (op := .rol a b) hc hx (fun _ => rfl) (fun _ => rfl) (hzero .rol)
  · exact Dev.gives_shift (op := .shl a b) hc hx (fun _ => rfl) (fun _ => rfl)
      (fun x => x.shifted_of_run (if_neg hn))
  · exact Dev.gives_shift (op := .shr a b) hc hx (fun _ => rfl) (fun _ => rfl)
      (fun x => x.shifted_of_run (if_neg hn))
  · exact Dev.gives_shift (op := .sar a b) hc hx (fun _ => rfl) (fun _ => rfl)
      (fun x => x.shifted_of_run (if_neg hn))
  · exact Dev.gives_shift (op := .rol a b) hc hx (fun _ => rfl) (fun _ => rfl)
      (fun x => x.shifted_of_run (if_neg hn))

end Sys2Proof.Machine
end

section
/-! What corrections and whole-granule writes leave of memory (R149, R297, R299). -/

namespace Sys2Proof.Machine.Mem

/-- Cell `c` holds the same byte in both memories, and its granule has the same syndrome. -/
structure SameAt (m n : Mem) (c : Nat) : Prop where
  raw  : n.raw c = m.raw c
  synd : n.syndOf c = m.syndOf c

theorem SameAt.refl (m : Mem) (c : Nat) : m.SameAt m c := ⟨rfl, rfl⟩

theorem SameAt.trans {m n p : Mem} {c : Nat} (h₁ : m.SameAt n c) (h₂ : n.SameAt p c) : m.SameAt p c :=
  ⟨h₂.raw.trans h₁.raw, h₂.synd.trans h₁.synd⟩

theorem SameAt.byte? {m n : Mem} {c : Nat} (h : m.SameAt n c) : n.byte? c = m.byte? c := by
  simp only [Mem.byte?, h.raw, h.synd]

theorem byte?_of_clean {m : Mem} {c : Nat} (h : m.syndOf c = .clean) : m.byte? c = some (m.raw c) := by
  simp [byte?, h]

/-- A syndrome belongs to a granule. -/
theorem syndOf_granule (m : Mem) (c : Nat) : m.syndOf (c / 8 * 8) = m.syndOf c := by
  simp [syndOf]

@[simp] theorem syndOf_poke (m : Mem) (a c : Nat) (b : W8) : (m.poke a b).syndOf c = m.syndOf c := by
  simp [syndOf, poke_synd]

/-- Dropping the syndrome of a granule makes it clean. -/
theorem syndOf_del_self {m n : Mem} {c : Nat} (hwf : m.wf = true) (h : n.synd = m.synd.del (c / 8)) :
    n.syndOf c = .clean := by
  rw [syndOf, h, get_del_self _ _ _ ((wf_iff m).1 hwf).2]; rfl

/-- Dropping the syndrome of a granule leaves that of every other. -/
theorem syndOf_del_of_ne {m n : Mem} {c g : Nat} (hwf : m.wf = true) (h : n.synd = m.synd.del g) (hc : c / 8 ≠ g) :
    n.syndOf c = m.syndOf c := by
  rw [syndOf, h, get_del_of_ne _ _ hc ((wf_iff m).1 hwf).2]; rfl

/-- Of the 80 values of R296 the first 64 stand for data bits. -/
theorem data_lt_of_syndOf {m : Mem} {c i : Nat} (h : m.syndOf c = .data i) : i < 64 := by
  unfold syndOf readSynd at h
  repeat' split at h
  all_goals simp_all

/-! Correcting a granule. -/

section
variable {m : Mem} {g : Nat}

/-- Correcting a granule touches no other. -/
theorem scrubGranule_sameAt (hwf : m.wf = true) {c : Nat} (hc : c / 8 ≠ g) : m.SameAt (m.scrubGranule g) c := by
  unfold scrubGranule
  split
  next i h =>
    have hi := data_lt_of_syndOf h
    exact ⟨raw_poke_of_ne m _ (by omega) hwf, syndOf_del_of_ne hwf rfl hc⟩
  next => exact ⟨rfl, syndOf_del_of_ne hwf rfl hc⟩
  next => exact ⟨rfl, rfl⟩

/-- A granule that can be read is clean once corrected. -/
theorem scrubGranule_clean (hwf : m.wf = true) {c : Nat} (hc : c / 8 = g)
    (h : m.syndOf c ≠ .addr ∧ m.syndOf c ≠ .multi) : (m.scrubGranule g).syndOf c = .clean := by
  subst hc
  unfold scrubGranule
  split
  next => exact syndOf_del_self hwf rfl
  next => exact syndOf_del_self hwf rfl
  next hdata hcheck =>
    rw [syndOf_granule] at hdata hcheck
    cases hs : m.syndOf c <;> simp_all [syndOf]

/-- A granule reads the same before and after it is corrected (R297). -/
theorem scrubGranule_byte? (hwf : m.wf = true) (c : Nat) : (m.scrubGranule g).byte? c = m.byte? c := by
  by_cases hc : c / 8 = g
  · subst hc
    cases hs : m.syndOf c with
    | data i =>
      rw [byte?_of_clean (scrubGranule_clean hwf rfl (by simp [hs]))]
      have hi := data_lt_of_syndOf hs
      have hraw : (m.scrubGranule (c / 8)).raw c =
          (m.poke (c / 8 * 8 + i / 8) (m.raw (c / 8 * 8 + i / 8) ^^^ BitVec.ofNat 8 (2 ^ (i % 8)))).raw c := by
        simp only [scrubGranule, syndOf_granule, hs]; rfl
      rw [hraw]
      by_cases hic : i / 8 = c % 8
      · rw [show c / 8 * 8 + i / 8 = c by omega, raw_poke_self _ _ _ hwf]
        simp [byte?, hs, hic]
      · simp [byte?, hs, hic, raw_poke_of_ne m _ (show c ≠ c / 8 * 8 + i / 8 by omega) hwf]
    | check =>
      rw [byte?_of_clean (scrubGranule_clean hwf rfl (by simp [hs]))]
      simp only [scrubGranule, syndOf_granule, hs, byte?]; rfl
    | clean | addr | multi => exact SameAt.byte? (by simp only [scrubGranule, syndOf_granule, hs]; exact ⟨rfl, rfl⟩)
  · exact (scrubGranule_sameAt hwf hc).byte?

end

/-- Correcting several granules touches no other. -/
theorem scrubAll_sameAt (gs : List Nat) {m : Mem} (hwf : m.wf = true) {c : Nat} (hc : c / 8 ∉ gs) :
    m.SameAt (gs.foldl scrubGranule m) c := by
  induction gs generalizing m with
  | nil => exact .refl m c
  | cons g gs ih =>
    simp only [List.mem_cons, not_or] at hc
    exact (scrubGranule_sameAt hwf hc.1).trans (ih (wf_scrubGranule _ _ hwf) hc.2)

theorem scrubAll_byte? (gs : List Nat) {m : Mem} (hwf : m.wf = true) (c : Nat) :
    (gs.foldl scrubGranule m).byte? c = m.byte? c := by
  induction gs generalizing m with
  | nil => rfl
  | cons g gs ih => exact (ih (wf_scrubGranule _ _ hwf)).trans (scrubGranule_byte? hwf c)

theorem div_mem_of_mem_singles {m : Mem} {cs : List Nat} {g : Nat} (h : g ∈ m.singles cs) : ∃ c ∈ cs, c / 8 = g := by
  have := List.mem_of_mem_filter h
  simpa using this

/-! Writing the eight cells of a granule. -/

theorem foldl_poke_syndOf (ps : List (Nat × W8)) (m : Mem) (c : Nat) :
    (ps.foldl (fun m p => m.poke p.1 p.2) m).syndOf c = m.syndOf c := by
  induction ps generalizing m with
  | nil => rfl
  | cons p ps ih => rw [List.foldl_cons, ih, syndOf_poke]

theorem foldl_poke_raw_of_not_mem (ps : List (Nat × W8)) {m : Mem} (hwf : m.wf = true) {c : Nat}
    (hc : ∀ p ∈ ps, c ≠ p.1) : (ps.foldl (fun m p => m.poke p.1 p.2) m).raw c = m.raw c := by
  induction ps generalizing m with
  | nil => rfl
  | cons p ps ih =>
    rw [List.foldl_cons, ih (wf_poke _ _ _ hwf) (fun q hq => hc q (by simp [hq])),
      raw_poke_of_ne _ _ (hc p (by simp)) hwf]

/-- Of cells that differ each holds the byte written to it. -/
theorem foldl_poke_raw_of_mem {ps : List (Nat × W8)} {m : Mem} (hwf : m.wf = true) (hps : (ps.map (·.1)).Nodup)
    {p : Nat × W8} (hp : p ∈ ps) : (ps.foldl (fun m p => m.poke p.1 p.2) m).raw p.1 = p.2 := by
  induction ps generalizing m with
  | nil => simp at hp
  | cons q ps ih =>
    rw [List.map_cons, List.nodup_cons] at hps
    rw [List.foldl_cons]
    rcases List.mem_cons.1 hp with rfl | hp
    · have hne : ∀ q ∈ ps, p.1 ≠ q.1 := fun q hq e => hps.1 (e ▸ List.mem_map_of_mem hq)
      rw [foldl_poke_raw_of_not_mem _ (wf_poke _ _ _ hwf) hne, raw_poke_self _ _ _ hwf]
    · exact ih (wf_poke _ _ _ hwf) hps.2 hp

/-- A write of a whole granule is performed, whatever the granule held, and leaves it clean (R299). -/
theorem writeGranule_whole {m : Mem} {g : Nat} {ps : List (Nat × W8)} (hwf : m.wf = true)
    (hps : (ps.map (·.1)).Nodup) (hlen : ps.length = 8) : ∃ n : Mem, n.wf = true ∧ n.syndOf (g * 8) = .clean ∧
      (∀ c, c / 8 ≠ g → m.SameAt n c) ∧ m.writeGranule g ps = (ps.foldl (fun m p => m.poke p.1 p.2) n, true) := by
  have hg : g * 8 / 8 = g := by omega
  have h : 8 ≤ (ps.map (·.1)).eraseDups.length := by
    have := (hps.subperm fun _ h => List.mem_eraseDups.2 h).length_le
    rwa [List.length_map, hlen] at this
  cases hs : m.syndOf (g * 8) with
  | addr | multi =>
    exact ⟨{ m with synd := m.synd.del g }, wf_synd _ _ (fun p => p.1 != g) hwf rfl rfl,
      syndOf_del_self hwf (by rw [hg]), fun c hc => ⟨rfl, syndOf_del_of_ne hwf rfl hc⟩, by simp [writeGranule, hs, h]⟩
  | clean | check | data i =>
    exact ⟨m.scrubGranule g, wf_scrubGranule _ _ hwf, scrubGranule_clean hwf hg (by simp [hs]),
      fun c hc => scrubGranule_sameAt hwf hc, by simp [writeGranule, hs]⟩

/-- A write to cells of one granule is the write of that granule. -/
theorem write_of_one_granule {m : Mem} {g : Nat} {ps : List (Nat × W8)} (hne : ps ≠ []) (h : ∀ p ∈ ps, p.1 / 8 = g) :
    m.write ps = ((m.writeGranule g ps).1, if (m.writeGranule g ps).2 then [] else ps.map (·.1)) := by
  have hgs : (ps.map (fun p => p.1 / 8)).eraseDups = [g] := by
    cases ps with
    | nil => exact absurd rfl hne
    | cons p ps =>
      have hfilter : (ps.map (fun p => p.1 / 8)).filter (fun b => !b == g) = [] := by
        simp only [List.filter_eq_nil_iff, List.mem_map]
        rintro _ ⟨q, hq, rfl⟩
        simp [h q (by simp [hq])]
      rw [List.map_cons, List.eraseDups_cons, h p (by simp), hfilter, List.eraseDups_nil]
  have hmine : ps.filter (fun p => p.1 / 8 == g) = ps := List.filter_eq_self.2 (fun p hp => by simp [h p hp])
  simp [write, hgs, hmine]

end Sys2Proof.Machine.Mem

/-! The local store of a tiller (R149, R150). -/

namespace Sys2Proof.Machine

theorem lsCell_mod (t a i : Nat) : lsCell t (a % 65536 + i) = lsCell t (a + i) := by
  unfold lsCell; omega

/-- The bytes of a granule follow one another. -/
theorem lsCell_add {a i : Nat} (t : Nat) (ha : a % 8 = 0) (hi : i < 8) : lsCell t (a + i) = lsCell t a + i := by
  unfold lsCell; omega

theorem lsCell_div {a i : Nat} (t : Nat) (ha : a % 8 = 0) (hi : i < 8) : lsCell t (a + i) / 8 = lsCell t a / 8 := by
  rw [lsCell_add t ha hi]; unfold lsCell lsBase; omega

/-- The local stores lie below the program memories. -/
theorem lsCell_lt_pmBase (t : Fin 96) (a : Nat) : lsCell t a < pmBase := by
  unfold lsCell lsBase pmBase; omega

namespace Dev

/-- A read of the local store writes corrected granules back, if anything. -/
theorem lsRead_mem (d : Dev) (t a n : Nat) : (d.lsRead t a n).1.mem = d.mem ∨ (d.lsRead t a n).1.mem =
    (d.mem.singles ((List.range n).map (fun i => lsCell t (a + i)))).foldl Mem.scrubGranule d.mem := by
  simp only [lsRead]
  split
  · exact .inl rfl
  · exact .inr rfl

theorem lsRead_byte? {d : Dev} (hwf : d.mem.wf = true) (t a n c : Nat) :
    (d.lsRead t a n).1.mem.byte? c = d.mem.byte? c := by
  rcases d.lsRead_mem t a n with h | h
  · rw [h]
  · rw [h, Mem.scrubAll_byte? _ hwf]

theorem lsRead_sameAt {d : Dev} (hwf : d.mem.wf = true) {t a n c : Nat} (hc : ∀ b, c / 8 ≠ lsCell t b / 8) :
    d.mem.SameAt (d.lsRead t a n).1.mem c := by
  rcases d.lsRead_mem t a n with h | h
  · rw [h]; exact .refl _ _
  · rw [h]
    refine Mem.scrubAll_sameAt _ hwf fun hmem => ?_
    obtain ⟨b, hb, hbc⟩ := Mem.div_mem_of_mem_singles hmem
    obtain ⟨i, -, rfl⟩ := List.mem_map.1 hb
    exact hc _ hbc.symm

/-- A store of eight bytes at a multiple of eight is performed whatever the granule held (R150, R299): the granule
reads as written, and no other is touched. -/
theorem lsWrite_granule {d : Dev} (hwf : d.mem.wf = true) (t : Nat) {a : Nat} {bs : List W8} (ha : a % 8 = 0)
    (hlen : bs.length = 8) :
    (∀ i (h : i < bs.length), (d.lsWrite t a bs).1.mem.byte? (lsCell t (a + i)) = some bs[i]) ∧
    (∀ c, c / 8 ≠ lsCell t a / 8 → d.mem.SameAt (d.lsWrite t a bs).1.mem c) := by
  generalize hps : ((List.range bs.length).map (fun i => lsCell t (a + i))).zip bs = ps
  have hkeys : ps.map (·.1) = (List.range 8).map (fun i => lsCell t (a + i)) := by
    rw [← hps, ← hlen]; exact List.map_fst_zip (by simp)
  have hnodup : (ps.map (·.1)).Nodup := by
    rw [hkeys]
    refine List.nodup_range.map_on fun i hi j hj h => ?_
    rw [lsCell_add t ha (List.mem_range.1 hi), lsCell_add t ha (List.mem_range.1 hj)] at h
    exact Nat.add_left_cancel h
  have hpslen : ps.length = 8 := by simp [← hps, hlen]
  have hgranule : ∀ p ∈ ps, p.1 / 8 = lsCell t a / 8 := by
    intro p hp
    have : p.1 ∈ ps.map (·.1) := List.mem_map_of_mem hp
    rw [hkeys] at this
    obtain ⟨i, hi, h⟩ := List.mem_map.1 this
    rw [← h, lsCell_div t ha (List.mem_range.1 hi)]
  obtain ⟨m, hm, hclean, hother, hwrite⟩ := Mem.writeGranule_whole (g := lsCell t a / 8) hwf hnodup hpslen
  have hmem : (d.lsWrite t a bs).1.mem = ps.foldl (fun m p => m.poke p.1 p.2) m := by
    simp only [lsWrite, hps, Mem.write_of_one_granule (List.ne_nil_of_length_pos (by omega)) hgranule, hwrite]
    rfl
  constructor
  · intro i hi
    have hp : (lsCell t (a + i), bs[i]) ∈ ps := by
      rw [← hps, List.mem_iff_getElem]
      exact ⟨i, by simpa using hi, by simp⟩
    have hsynd : (ps.foldl (fun m p => m.poke p.1 p.2) m).syndOf (lsCell t (a + i)) = .clean := by
      rw [Mem.foldl_poke_syndOf, ← Mem.syndOf_granule, hgranule _ hp, hclean]
    rw [hmem, Mem.byte?_of_clean hsynd, Mem.foldl_poke_raw_of_mem hm hnodup hp]
  · intro c hc
    rw [hmem]
    refine (hother c hc).trans ⟨Mem.foldl_poke_raw_of_not_mem _ hm fun p hp e => hc ?_, Mem.foldl_poke_syndOf _ _ _⟩
    rw [e, hgranule p hp]

end Dev
end Sys2Proof.Machine
end

section
/-! The normal entry of an exception (R341, R344, R345, R347). -/

namespace Sys2Proof.Machine

/-! Bytes of a number. -/

@[simp] theorem length_toLE (n x : Nat) : (toLE n x).length = n := by
  induction n generalizing x with
  | zero => rfl
  | succ n ih => simp [toLE, ih]

theorem getElem_toLE {n x i : Nat} (h : i < (toLE n x).length) : (toLE n x)[i] = BitVec.ofNat 8 (x / 256 ^ i) := by
  induction n generalizing x i with
  | zero => simp at h
  | succ n ih =>
    cases i with
    | zero => simp [toLE]
    | succ i => simp [toLE, ih, Nat.div_div_eq_div_mul, Nat.pow_succ']

/-- The low and the high bytes of a doubleword made of two words. -/
theorem bytes_of_words (hi lo : W32) {i : Nat} (h : i < 4) :
    BitVec.ofNat 8 ((hi.toNat * 2 ^ 32 + lo.toNat) / 256 ^ i) = lo.extractLsb' (8 * i) 8 ∧
    BitVec.ofNat 8 ((hi.toNat * 2 ^ 32 + lo.toNat) / 256 ^ (4 + i)) = hi.extractLsb' (8 * i) 8 := by
  have := lo.isLt
  constructor <;> apply BitVec.eq_of_toNat_eq <;> interval_cases i <;>
    simp [BitVec.extractLsb'_toNat, Nat.shiftRight_eq_div_pow] <;> omega

namespace Thread

/-! A level of EPRIV. -/

theorem putFld_bit {x j : Nat} (hx : x < 256) (hj : j < 8) (b : Bool) :
    putFld x j j (b2n b) < 256 ∧ bitN (putFld x j j (b2n b)) j = b := by
  unfold putFld fld bitN b2n
  interval_cases j <;> cases b <;> simp <;> omega

theorem mkEpriv_toNat {depth kind pstk : Nat} (hd : depth < 16) (hk : kind < 256) (hp : pstk < 256) :
    (mkEpriv depth kind pstk).toNat = depth * 2 ^ 16 + kind * 2 ^ 8 + pstk := by
  simp only [mkEpriv, BitVec.toNat_ofNat]; omega

section
variable {x : Thread} (hd : x.depth < 8) (ev : Bool)
include hd

theorem pushPriv_epriv_toNat : ∃ kind < 256, (x.pushPriv ev).epriv.toNat =
    (x.depth + 1) * 2 ^ 16 + kind * 2 ^ 8 + putFld x.pstk x.depth x.depth (b2n x.priv) := by
  have hkind : x.kind < 256 := Nat.mod_lt _ (by decide)
  have hpstk : x.pstk < 256 := Nat.mod_lt _ (by decide)
  exact ⟨_, (putFld_bit hkind hd ev).1,
    mkEpriv_toNat (by omega) (putFld_bit hkind hd ev).1 (putFld_bit hpstk hd x.priv).1⟩

theorem pushPriv_depth : (x.pushPriv ev).depth = x.depth + 1 := by
  have hpstk : x.pstk < 256 := Nat.mod_lt _ (by decide)
  obtain ⟨kind, hkind, h⟩ := pushPriv_epriv_toNat hd ev
  have := (putFld_bit hpstk hd x.priv).1
  rw [depth, fld, h]
  omega

theorem pushPriv_pstk : bitN (x.pushPriv ev).pstk x.depth = x.priv := by
  have hpstk : x.pstk < 256 := Nat.mod_lt _ (by decide)
  obtain ⟨kind, -, h⟩ := pushPriv_epriv_toNat hd ev
  obtain ⟨hlt, hbit⟩ := putFld_bit hpstk hd x.priv
  have : (x.pushPriv ev).pstk = putFld x.pstk x.depth x.depth (b2n x.priv) := by
    rw [pstk, fld, h]; omega
  rw [this, hbit]

end

/-! The thread after the entry. -/

/-- The stack pointer of the handler whose table entry begins with `w0` (R341, R347). -/
def handlerSp (x : Thread) (w0 : Nat) : Nat :=
  if bitN w0 22 || bitN w0 20 != x.priv then fld w0 47 32 else (x.rd 30).toNat

/-- The offset of the frame that the entry pushes. -/
def frameAt (x : Thread) (w0 : Nat) : Nat := (x.handlerSp w0 - x.handlerSp w0 % 8 + 0xFFF0) % 65536

/-- The thread with the exception registers of cause `c` written (R347). -/
def caused (x : Thread) (c : Dev.Cause) : Thread :=
  { x with
    epc := c.saved.setWidth 32, estat := x.status, ecause := BitVec.ofNat 32 (c.vec * 2 ^ 26 + c.info % 2 ^ 16)
    evaLo := (c.va.map (BitVec.ofNat 32)).getD x.evaLo
    evaHi := (c.va.map (fun va => BitVec.ofNat 32 (va / 2 ^ 32 % 2 ^ 16))).getD x.evaHi }

/-- The thread with its stack pointer, level, status and pc those of the handler (R344, R347). -/
def handles (x : Thread) (c : Dev.Cause) (w0 : Nat) (sp : W32) : Thread :=
  { (x.wr 30 sp).pushPriv c.ev with
    pmFirst := ((x.wr 30 sp).pushPriv c.ev).pmMarked (c.vec == 8), priv := bitN w0 20, sua := bitN w0 25, ct := bitN w0 24
    pc := BitVec.ofNat 14 w0, st := .ready, park := .none, ext := [], pf := [] }

/-- The thread at the start of the handler of cause `c`, whose table entry begins with `w0`, outside a fast handler
(R344, R347). -/
def entered (x : Thread) (c : Dev.Cause) (w0 : Nat) : Thread :=
  { x.caused c with
    g := x.g.put 30 (BitVec.ofNat 32 (x.frameAt w0)), epriv := (x.pushPriv c.ev).epriv
    pmFirst := (x.pushPriv c.ev).pmMarked (c.vec == 8), priv := bitN w0 20, sua := bitN w0 25, ct := bitN w0 24
    pc := BitVec.ofNat 14 w0, st := .ready, park := .none, ext := [], pf := [] }

section
variable {x : Thread} (hfb : x.fb = false) (c : Dev.Cause) (w0 : Nat)
include hfb

theorem handles_caused :
    (x.caused c).handles c w0 (BitVec.ofNat 32 (x.frameAt w0)) = x.entered c w0 := by
  rw [handles, wr_of_gBank (x.caused c) _ (.inl hfb) (by decide)]
  rfl

theorem entered_rd_of_ne {r : Nat} (hr : r ≠ 30) : (x.entered c w0).rd r = x.rd r := by
  by_cases h0 : r = 0
  · subst h0; rfl
  · rw [rd_of_gBank (x.entered c w0) (.inl hfb) h0, x.rd_of_gBank (.inl hfb) h0]
    exact SMap.get_put_of_ne _ _ _ hr

theorem entered_rd_30 : (x.entered c w0).rd 30 = BitVec.ofNat 32 (x.frameAt w0) := by
  rw [rd_of_gBank (x.entered c w0) (.inl hfb) (by decide)]
  exact SMap.get_put_self _ _ _ _

end

end Thread

namespace Dev

/-! What changes nothing but tillers and memory. -/

/-- Only tillers and memory may differ. -/
def SameButStore (d e : Dev) : Prop := e = { d with tillers := e.tillers, mem := e.mem }

namespace SameButStore

variable {d e f : Dev}

theorem refl (d : Dev) : d.SameButStore d := rfl

theorem trans (h₁ : d.SameButStore e) (h₂ : e.SameButStore f) : d.SameButStore f := by
  unfold SameButStore at *; rw [h₂, h₁]

theorem thread (h : d.SameButStore e) (t k : Nat) : e.thread t k = d.thread t k := by rw [h]; rfl
theorem seeds (h : d.SameButStore e) : e.seeds = d.seeds := by rw [h]
theorem dbg (h : d.SameButStore e) : e.dbg = d.dbg := by rw [h]
theorem inForce (h : d.SameButStore e) : e.inForce = d.inForce := by rw [h]; rfl

end SameButStore

theorem lsRead_sameButStore (d : Dev) (t a n : Nat) : d.SameButStore (d.lsRead t a n).1 := by
  simp only [lsRead]; split <;> rfl

theorem lsWrite_sameButStore (d : Dev) (t a : Nat) (bs : List W8) : d.SameButStore (d.lsWrite t a bs).1 := by
  simp only [lsWrite]; split_ifs <;> rfl

theorem traceRec_sameButStore (d : Dev) (t k kind : Nat) (src dst : BitVec 14) :
    d.SameButStore (d.traceRec t k kind src dst) := by
  rcases d.traceRec_cases t k kind src dst with h | ⟨y, h⟩ <;> rw [h] <;> rfl

@[simp] theorem traceRec_mem (d : Dev) (t k kind : Nat) (src dst : BitVec 14) :
    (d.traceRec t k kind src dst).mem = d.mem := by
  rcases d.traceRec_cases t k kind src dst with h | ⟨y, h⟩
  · rw [h]
  · rw [h]; rfl

/-! The handler table entry. -/

theorem htEntry_fst (d : Dev) (t k vec : Nat) : ∃ a n, (d.htEntry t k vec).1 = (d.lsRead t a n).1 := by
  refine ⟨fld (d.thread t k).htbase.toNat 15 10 * 0x400 + 16 * vec, 16, ?_⟩
  simp only [htEntry]; split <;> simp_all

/-! The entry's read of the table corrects what it read and touches nothing else. -/

section
variable {d : Dev} (hwf : d.mem.wf = true) (t k vec : Nat)
include hwf

theorem htEntry_wf : (d.htEntry t k vec).1.mem.wf = true := by
  obtain ⟨a, n, h⟩ := d.htEntry_fst t k vec
  rw [h]; exact lsRead_wf _ _ _ _ hwf

theorem htEntry_byte? (c : Nat) : (d.htEntry t k vec).1.mem.byte? c = d.mem.byte? c := by
  obtain ⟨a, n, h⟩ := d.htEntry_fst t k vec
  rw [h, lsRead_byte? hwf]

theorem htEntry_sameAt {c : Nat} (hc : ∀ b, c / 8 ≠ lsCell t b / 8) : d.mem.SameAt (d.htEntry t k vec).1.mem c := by
  obtain ⟨a, n, h⟩ := d.htEntry_fst t k vec
  rw [h]; exact lsRead_sameAt hwf hc

end

/-- What a read of the local store answers rests on memory alone. -/
theorem lsRead_snd_congr {d e : Dev} (h : e.mem = d.mem) (t a n : Nat) : (e.lsRead t a n).2 = (d.lsRead t a n).2 := by
  simp only [lsRead, h]; split <;> rfl

/-- A handler is found by HTBASE and in memory. -/
theorem HasHandler.congr {d e : Dev} {t k vec w0 : Nat} (h : d.HasHandler t k vec w0) (hm : e.mem = d.mem)
    (hb : (e.thread t k).htbase = (d.thread t k).htbase) : e.HasHandler t k vec w0 := by
  refine Eq.trans ?_ h
  have hread := lsRead_snd_congr hm t (fld (d.thread t k).htbase.toNat 15 10 * 0x400 + 16 * vec) 16
  rcases he : e.lsRead t (fld (d.thread t k).htbase.toNat 15 10 * 0x400 + 16 * vec) 16 with ⟨e', w⟩
  rcases hd : d.lsRead t (fld (d.thread t k).htbase.toNat 15 10 * 0x400 + 16 * vec) 16 with ⟨d', w'⟩
  rw [he, hd] at hread
  obtain rfl : w = w' := hread
  simp only [htEntry, hb, he, hd]
  cases w <;> rfl

/-! The frame. -/

theorem frameAt_mod_8 (x : Thread) (w0 : Nat) : x.frameAt w0 % 8 = 0 := by
  rw [Thread.frameAt]; omega

/-- The frame of thread `x` pushed at offset `a`: ESTAT and EPC, then g31 and g30 (R347). -/
def pushFrame (d : Dev) (t a : Nat) (x : Thread) : Dev :=
  ((d.lsWrite t a (toLE 8 (x.estat.toNat * 2 ^ 32 + x.epc.toNat % 2 ^ 14))).1.lsWrite t (a + 8)
    (toLE 8 ((x.rd 31).toNat * 2 ^ 32 + (x.rd 30).toNat))).1

theorem pushFrame_sameButStore (d : Dev) (t a : Nat) (x : Thread) : d.SameButStore (d.pushFrame t a x) := by
  rw [pushFrame]; exact (lsWrite_sameButStore ..).trans (lsWrite_sameButStore ..)

theorem lsWrite_mod (d : Dev) (t a : Nat) (bs : List W8) : d.lsWrite t (a % 65536) bs = d.lsWrite t a bs := by
  simp only [lsWrite, lsCell_mod]

theorem pushFrame_mod (d : Dev) (t a : Nat) (x : Thread) : d.pushFrame t (a % 65536) x = d.pushFrame t a x := by
  rw [pushFrame, pushFrame, lsWrite_mod, ← lsWrite_mod _ _ (a % 65536 + 8), ← lsWrite_mod _ _ (a + 8), Nat.mod_add_mod]

section
variable {d : Dev} (hwf : d.mem.wf = true) (t : Nat) {a : Nat} (ha : a % 8 = 0)
include hwf ha

/-- A doubleword stored reads back, byte by byte. -/
theorem lsWrite_toLE_lsByte (v : Nat) {i : Nat} (hi : i < 8) :
    (d.lsWrite t a (toLE 8 v)).1.lsByte t (a + i) = some (BitVec.ofNat 8 (v / 256 ^ i)) := by
  have hbytes := (lsWrite_granule hwf t ha (length_toLE 8 v)).1 i (by simpa using hi)
  rwa [getElem_toLE] at hbytes

theorem lsWrite_toLE_sameAt (v : Nat) {c : Nat} (hc : c / 8 ≠ lsCell t a / 8) :
    d.mem.SameAt (d.lsWrite t a (toLE 8 v)).1.mem c :=
  (lsWrite_granule hwf t ha (length_toLE 8 v)).2 c hc

/-- Granules outside the frame are not touched. -/
theorem pushFrame_sameAt (x : Thread) {c : Nat} (h₁ : c / 8 ≠ lsCell t a / 8) (h₂ : c / 8 ≠ lsCell t (a + 8) / 8) :
    d.mem.SameAt (d.pushFrame t a x).mem c := by
  rw [pushFrame]
  exact (lsWrite_toLE_sameAt hwf t ha _ h₁).trans (lsWrite_toLE_sameAt (lsWrite_wf _ _ _ _ hwf) t (by omega) _ h₂)

theorem pushFrame_high (x : Thread) {i : Nat} (hi : i < 8) : (d.pushFrame t a x).lsByte t (a + 8 + i) =
    some (BitVec.ofNat 8 (((x.rd 31).toNat * 2 ^ 32 + (x.rd 30).toNat) / 256 ^ i)) := by
  rw [pushFrame]; exact lsWrite_toLE_lsByte (lsWrite_wf _ _ _ _ hwf) t (by omega) _ hi

theorem pushFrame_low (x : Thread) {i : Nat} (hi : i < 8) : (d.pushFrame t a x).lsByte t (a + i) =
    some (BitVec.ofNat 8 ((x.estat.toNat * 2 ^ 32 + x.epc.toNat % 2 ^ 14) / 256 ^ i)) := by
  have hother : lsCell t (a + i) / 8 ≠ lsCell t (a + 8) / 8 := by
    rw [lsCell_div t ha hi]; unfold lsCell lsBase; omega
  rw [pushFrame, ← lsWrite_toLE_lsByte hwf t ha _ hi]
  exact (lsWrite_toLE_sameAt (lsWrite_wf _ _ _ _ hwf) t (by omega) _ hother).byte?

end

/-! The entry. -/

section
variable {d : Dev} {t k : Nat} {c : Cause} {w0 : Nat}

/-- The normal entry with a level of EPRIV free and a handler to enter, in the order of its steps (R347). -/
theorem enterNormal_of_htEntry {e : Dev} (hd : (d.thread t k).depth ≠ 8)
    (h : (d.setThread t k ((d.thread t k).caused c)).htEntry t k c.vec = (e, some w0)) :
    d.enterNormal t k c = ((e.pushFrame t (((d.thread t k).handlerSp w0 - (d.thread t k).handlerSp w0 % 8) % 65536 + 0xFFF0)
      (d.thread t k)).traceRec t k 1 c.saved (BitVec.ofNat 14 w0)).modThread t k (fun y => y.handles c w0
        (BitVec.ofNat 32 ((((d.thread t k).handlerSp w0 - (d.thread t k).handlerSp w0 % 8) % 65536 + 0xFFF0) % 65536))) := by
  unfold enterNormal
  rw [if_neg hd, pushFrame]
  -- reads and writes as variables, or the comparison of terms below would compute them
  generalize htEntry = table at h ⊢
  generalize lsWrite = write
  obtain ⟨store, done, rfl⟩ : ∃ (store : Dev → Nat → Nat → List W8 → Dev) (done : Dev → Nat → Nat → List W8 → Bool),
      write = fun d t a bs => (store d t a bs, done d t a bs) := ⟨fun d t a bs => (write d t a bs).1, _, rfl⟩
  rcases c with ⟨vec, info, _ | va, saved, ev⟩
  · simp only [Thread.caused, Option.map_none, Option.getD_none] at h
    simp only [h]
    rfl
  · simp only [Thread.caused, Option.map_some, Option.getD_some] at h
    simp only [h]
    rfl

/-- The device once the entry of cause `c` has read the table entry, pushed the frame and been traced. -/
def framed (d : Dev) (t k : Nat) (c : Cause) (w0 : Nat) : Dev :=
  (((d.setThread t k ((d.thread t k).caused c)).htEntry t k c.vec).1.pushFrame t ((d.thread t k).frameAt w0)
    (d.thread t k)).traceRec t k 1 c.saved (BitVec.ofNat 14 w0)

theorem framed_sameButStore (d : Dev) (t k : Nat) (c : Cause) (w0 : Nat) :
    (d.setThread t k ((d.thread t k).caused c)).SameButStore (d.framed t k c w0) := by
  obtain ⟨a, n, h⟩ := htEntry_fst (d.setThread t k ((d.thread t k).caused c)) t k c.vec
  rw [framed, h]
  exact (lsRead_sameButStore ..).trans ((pushFrame_sameButStore ..).trans (traceRec_sameButStore ..))

theorem framed_thread (d : Dev) (t k : Nat) (c : Cause) (w0 : Nat) :
    (d.framed t k c w0).thread t k = (d.thread t k).caused c := by
  rw [(framed_sameButStore d t k c w0).thread, thread_setThread_self]

/-- The normal entry outside a fast handler, with a level of EPRIV free and a handler to enter (R345, R347). -/
theorem enterNormal_of_hasHandler (hfb : (d.thread t k).fb = false) (hd : (d.thread t k).depth < 8)
    (hh : d.HasHandler t k c.vec w0) :
    d.enterNormal t k c = (d.framed t k c w0).setThread t k ((d.thread t k).entered c w0) := by
  have hh' : (d.setThread t k ((d.thread t k).caused c)).HasHandler t k c.vec w0 :=
    hh.congr rfl (by rw [thread_setThread_self]; rfl)
  have hmod : (((d.thread t k).handlerSp w0 - (d.thread t k).handlerSp w0 % 8) % 65536 + 0xFFF0) % 65536 =
      (d.thread t k).frameAt w0 := by rw [Thread.frameAt]; omega
  rw [enterNormal_of_htEntry (by omega) (Prod.ext rfl hh'), ← pushFrame_mod, hmod, modThread, ← framed, framed_thread,
    Thread.handles_caused hfb]

section
variable (hfb : (d.thread t k).fb = false) (hd : (d.thread t k).depth < 8) (hh : d.HasHandler t k c.vec w0)
include hfb hd hh

theorem enterNormal_thread : (d.enterNormal t k c).thread t k = (d.thread t k).entered c w0 := by
  rw [enterNormal_of_hasHandler hfb hd hh, thread_setThread_self]

theorem enterNormal_seeds : (d.enterNormal t k c).seeds = d.seeds := by
  rw [enterNormal_of_hasHandler hfb hd hh, setThread_seeds, (framed_sameButStore d t k c w0).seeds, setThread_seeds]

theorem enterNormal_dbg : (d.enterNormal t k c).dbg = d.dbg := by
  rw [enterNormal_of_hasHandler hfb hd hh, setThread_dbg, (framed_sameButStore d t k c w0).dbg, setThread_dbg]

/-- The entry of a thread that is READY leaves whether a freeze is in force. -/
theorem inForce_enterNormal (hst : (d.thread t k).st = .ready) : (d.enterNormal t k c).inForce = d.inForce := by
  have hhalted : ((d.thread t k).entered c w0).halted = (d.thread t k).halted := by
    simp only [Thread.halted, hst]; rfl
  rw [enterNormal_of_hasHandler hfb hd hh, inForce_setThread _ _ _ _ (by rw [framed_thread]; exact hhalted),
    (framed_sameButStore d t k c w0).inForce, inForce_setThread d t k ((d.thread t k).caused c) rfl]

/-- Memory after the entry is memory after its frame. -/
theorem enterNormal_mem : (d.enterNormal t k c).mem = (((d.setThread t k ((d.thread t k).caused c)).htEntry t k
    c.vec).1.pushFrame t ((d.thread t k).frameAt w0) (d.thread t k)).mem := by
  rw [enterNormal_of_hasHandler hfb hd hh, setThread_mem, framed, traceRec_mem]

/-- The bytes of the frame (R347). -/
theorem enterNormal_frame (hwf : d.mem.wf = true) {i : Nat} (hi : i < 4) :
    (d.enterNormal t k c).lsByte t ((d.thread t k).frameAt w0 + i) =
      some (((d.thread t k).epc &&& 0x3FFF).extractLsb' (8 * i) 8) ∧
    (d.enterNormal t k c).lsByte t ((d.thread t k).frameAt w0 + 4 + i) =
      some ((d.thread t k).estat.extractLsb' (8 * i) 8) ∧
    (d.enterNormal t k c).lsByte t ((d.thread t k).frameAt w0 + 8 + i) =
      some (((d.thread t k).rd 30).extractLsb' (8 * i) 8) ∧
    (d.enterNormal t k c).lsByte t ((d.thread t k).frameAt w0 + 12 + i) =
      some (((d.thread t k).rd 31).extractLsb' (8 * i) 8) := by
  have hcaused : (d.setThread t k ((d.thread t k).caused c)).mem.wf = true := hwf
  have htable := htEntry_wf hcaused t k c.vec
  have ha := frameAt_mod_8 (d.thread t k) w0
  have hepc : ((d.thread t k).epc &&& 0x3FFF).toNat = (d.thread t k).epc.toNat % 2 ^ 14 := by
    rw [BitVec.toNat_and]; exact Nat.and_two_pow_sub_one_eq_mod _ 14
  obtain ⟨hb0, hb4⟩ := bytes_of_words (d.thread t k).estat ((d.thread t k).epc &&& 0x3FFF) hi
  obtain ⟨hb8, hb12⟩ := bytes_of_words ((d.thread t k).rd 31) ((d.thread t k).rd 30) hi
  simp only [lsByte, enterNormal_mem hfb hd hh]
  refine ⟨?_, ?_, ?_, ?_⟩
  · rw [← hb0, hepc]; exact pushFrame_low htable t ha _ (by omega)
  · rw [← hb4, hepc, Nat.add_assoc]; exact pushFrame_low htable t ha _ (by omega)
  · rw [← hb8]; exact pushFrame_high htable t ha _ (by omega)
  · rw [← hb12, show (d.thread t k).frameAt w0 + 12 + i = (d.thread t k).frameAt w0 + 8 + (4 + i) by omega]
    exact pushFrame_high htable t ha _ (by omega)

/-- Memory outside the frame reads as before. -/
theorem enterNormal_sameMemBut (hwf : d.mem.wf = true) : d.SameMemBut (d.enterNormal t k c)
    ((List.range 16).map (fun i => lsCell t ((d.thread t k).frameAt w0 + i))) := by
  intro c' hc'
  have hcaused : (d.setThread t k ((d.thread t k).caused c)).mem.wf = true := hwf
  have htable := htEntry_wf hcaused t k c.vec
  have ha := frameAt_mod_8 (d.thread t k) w0
  have hout (j : Nat) (hj : j ≤ 8) (hj8 : j % 8 = 0) : c' / 8 ≠ lsCell t ((d.thread t k).frameAt w0 + j) / 8 := by
    refine fun h => hc' (List.mem_map.2 ⟨j + c' % 8, List.mem_range.2 (by omega), ?_⟩)
    rw [← Nat.add_assoc, lsCell_add t (by omega) (by omega)]
    have : lsCell t ((d.thread t k).frameAt w0 + j) % 8 = 0 := by unfold lsCell lsBase; omega
    omega
  have hlow := hout 0 (by omega) rfl
  have hhigh := hout 8 (by omega) rfl
  rw [Nat.add_zero] at hlow
  rw [enterNormal_mem hfb hd hh,
    (pushFrame_sameAt htable t ha _ hlow hhigh).byte?, htEntry_byte? hcaused, setThread_mem]

end

/-- The entry leaves program memory (R347). -/
theorem enterNormal_pmRead {t : Fin 96} {k : Nat} (hfb : (d.thread t k).fb = false) (hd : (d.thread t k).depth < 8)
    (hh : d.HasHandler t k c.vec w0) (hwf : d.mem.wf = true) (w : Nat) :
    (d.enterNormal t k c).pmRead t w = d.pmRead t w := by
  have hcaused : (d.setThread t k ((d.thread t k).caused c)).mem.wf = true := hwf
  have htable := htEntry_wf hcaused t k c.vec
  have hraw (o : Nat) : (d.enterNormal t k c).mem.raw (pmCell t o) = d.mem.raw (pmCell t o) := by
    have hout (b : Nat) : pmCell t o / 8 ≠ lsCell t b / 8 := by
      have := lsCell_lt_pmBase t b
      unfold pmCell pmBase at *; omega
    rw [enterNormal_mem hfb hd hh]
    exact ((htEntry_sameAt hcaused t k c.vec hout).trans
      (pushFrame_sameAt htable t (frameAt_mod_8 _ w0) _ (hout _) (hout _))).raw
  rw [pmRead, pmRead, hraw, hraw]

end
end Dev
end Sys2Proof.Machine
end

section
/-! Instructions that raise an exception on themselves (R149, R176-R179, R188, R196, R197). -/

namespace Sys2Proof.Machine
namespace Dev

/-! A word that is issued and raises an exception. -/

/-- The device after thread `k` has issued a word that is entered as cause `c`. -/
def raised (d : Dev) (t k : Nat) (c : Cause) : Dev := (d.issued t k).enterNormal t k c

/-- The cause of an exception that the word at the pc raises on itself: the saved address is the first word of its
group (R179). -/
def ownCause (d : Dev) (t k vec : Nat) (va : Option Nat) : Cause :=
  ⟨vec, 0, va, if (d.thread t k).ext = [] then (d.thread t k).pc else (d.thread t k).ipc, false⟩

/-- The cause of SVC: the saved address is the next word (R196). -/
def svcCause (d : Dev) (t k a : Nat) : Cause := ⟨0x20 + a, a, none, (d.thread t k).pc + 1, false⟩

/-- The first word of the group of the word at the pc (R179). -/
theorem issued_ipc (d : Dev) (t k : Nat) : ((d.issued t k).thread t k).ipc =
    if (d.thread t k).ext = [] then (d.thread t k).pc else (d.thread t k).ipc := by
  rw [issued_thread]; simp only [List.isEmpty_iff]

theorem issued_priv {d : Dev} {t k : Nat} {p : Bool} (h : (d.thread t k).priv = p) :
    ((d.issued t k).thread t k).priv = p := by
  rw [issued_thread]; exact h

theorem issued_rdPair (d : Dev) (t k n : Nat) : ((d.issued t k).thread t k).rdPair n = (d.thread t k).rdPair n := by
  rw [issued_thread]; rfl

theorem issued_frameAt (d : Dev) (t k w0 : Nat) :
    ((d.issued t k).thread t k).frameAt w0 = (d.thread t k).frameAt w0 := by
  rw [issued_thread]; rfl

/-- Taking a word leaves whether an exception can be entered. -/
theorem CanEnter.issued {d : Dev} {t : Fin 96} {k : Fin 4} (h : d.CanEnter t k) : (d.issued t k).CanEnter t k :=
  ⟨by rw [issued_thread]; exact h.normal, by rw [issued_thread]; exact h.level, h.noChain⟩

theorem HasHandler.issued {d : Dev} {t k vec w0 : Nat} (h : d.HasHandler t k vec w0) :
    (d.issued t k).HasHandler t k vec w0 := h.congr rfl (by rw [issued_thread])

section
variable {d : Dev} {t : Fin 96} {k : Fin 4} {c : Cause} {w0 : Nat}

section
variable (he : d.CanEnter t k) (hh : d.HasHandler t k c.vec w0)
include he hh

theorem raised_thread : (d.raised t k c).thread t k = ((d.issued t k).thread t k).entered c w0 :=
  enterNormal_thread he.issued.normal he.issued.level hh.issued

theorem raised_seeds : (d.raised t k c).seeds = d.seeds :=
  enterNormal_seeds he.issued.normal he.issued.level hh.issued

theorem raised_pmRead (hwf : d.mem.wf = true) (w : Nat) : (d.raised t k c).pmRead t w = d.pmRead t w :=
  enterNormal_pmRead he.issued.normal he.issued.level hh.issued hwf w

theorem raised_sb : ((d.raised t k c).thread t k).sb = (d.thread t k).sb := by
  rw [raised_thread he hh, issued_thread]; rfl

theorem raised_rd_30 : ((d.raised t k c).thread t k).rd 30 = BitVec.ofNat 32 ((d.thread t k).frameAt w0) := by
  rw [raised_thread he hh, Thread.entered_rd_30 he.issued.normal, issued_frameAt]

/-- The frame holds EPC and ESTAT as they were, g30 and g31 (R347). -/
theorem raised_frame (hwf : d.mem.wf = true) {i : Nat} (hi : i < 4) :
    (d.raised t k c).lsByte t ((d.thread t k).frameAt w0 + i) =
      some (((d.thread t k).epc &&& 0x3FFF).extractLsb' (8 * i) 8) ∧
    (d.raised t k c).lsByte t ((d.thread t k).frameAt w0 + 4 + i) =
      some ((d.thread t k).estat.extractLsb' (8 * i) 8) ∧
    (d.raised t k c).lsByte t ((d.thread t k).frameAt w0 + 8 + i) =
      some (((d.thread t k).rd 30).extractLsb' (8 * i) 8) ∧
    (d.raised t k c).lsByte t ((d.thread t k).frameAt w0 + 12 + i) =
      some (((d.thread t k).rd 31).extractLsb' (8 * i) 8) := by
  have hframe := enterNormal_frame he.issued.normal he.issued.level hh.issued hwf hi
  rwa [issued_frameAt, issued_rd, issued_rd, issued_thread] at hframe

theorem raised_sameMemBut (hwf : d.mem.wf = true) : d.SameMemBut (d.raised t k c)
    ((List.range 16).map (fun i => lsCell t ((d.thread t k).frameAt w0 + i))) := by
  have hmem := enterNormal_sameMemBut he.issued.normal he.issued.level hh.issued hwf
  rwa [issued_frameAt] at hmem

/-- What the entry leaves in the thread, by the fields of R344 and R347. -/
theorem raised_entered (hvec : c.vec < 64) (hinfo : c.info < 2 ^ 16) :
    d.Entered (d.raised t k c) t k c.vec c.info c.saved w0 := by
  have hthread := raised_thread he hh
  have hlevel := he.issued.level
  rw [issued_thread] at hthread hlevel
  refine ⟨?_, ?_, ?_, ?_, ?_, ?_, ?_, ?_, ?_, ?_, ?_, fun r hr => ?_, ?_⟩ <;> rw [hthread]
  case refine_3 =>
    show (BitVec.ofNat 32 _).toNat = _
    rw [BitVec.toNat_ofNat]; omega
  case refine_8 => exact Thread.pushPriv_depth hlevel c.ev
  case refine_9 => exact Thread.pushPriv_pstk hlevel c.ev
  case refine_11 => exact ⟨rfl, rfl, rfl, rfl⟩
  case refine_12 => exact Thread.entered_rd_of_ne he.normal c w0 hr
  case refine_13 => exact ⟨rfl, rfl, rfl, rfl, rfl, rfl, rfl, rfl, rfl⟩
  all_goals rfl

omit hh in
theorem ownCause_entered {vec : Nat} {va : Option Nat} (hh : d.HasHandler t k vec w0) (hvec : vec < 64) :
    d.Entered (d.raised t k (d.ownCause t k vec va)) t k vec 0 (d.ownCause t k vec none).saved w0 :=
  raised_entered (c := d.ownCause t k vec va) he hh hvec (by decide : 0 < 2 ^ 16)

/-- EVA holds the address of a cause that has one (R347). -/
theorem raised_eva {va : Nat} (hva : c.va = some va) :
    ((d.raised t k c).thread t k).evaLo = BitVec.ofNat 32 va ∧
    ((d.raised t k c).thread t k).evaHi = BitVec.ofNat 32 (va / 2 ^ 32 % 2 ^ 16) := by
  rw [raised_thread he hh]
  constructor
  · show (c.va.map _).getD _ = _
    rw [hva]; rfl
  · show (c.va.map _).getD _ = _
    rw [hva]; rfl

end

variable (hc : CanIssue d t k) (he : d.CanEnter t k)
include hc he

/-- With no chain to break, nothing fed and no fast handler, an exception is entered (R81, R345). -/
theorem raiseExc_issued {vec info : Nat} {va : Option Nat} {saved : BitVec 14} (hh : d.HasHandler t k vec w0) :
    (d.issued t k).raiseExc t k vec info va saved = d.raised t k ⟨vec, info, va, saved, false⟩ := by
  have hbusy : ((d.issued t k).thread t k).dbg.busy = false := by rw [issued_thread]; exact hc.notFed
  have hst : ((d.issued t k).thread t k).st = .ready := by rw [issued_thread]; exact hc.ready
  have hhalt : ((d.raised t k ⟨vec, info, va, saved, false⟩).thread t k).dbg.haltReq = 0 := by
    rw [raised_thread (c := ⟨vec, info, va, saved, false⟩) he hh, issued_thread]; exact hc.noHalt
  have hchain : (d.issued t k).breakChain t k = d.issued t k := by
    simp only [breakChain, he.issued.noChain]
  simp only [raiseExc, takeExc, hbusy, hst, hchain, he.issued.normal, reduceCtorEq, Bool.false_eq_true, if_false]
  exact settle_of_noHalt _ _ _ hhalt

theorem seqExc_issued {vec : Nat} {va : Option Nat} (hh : d.HasHandler t k vec w0) :
    (d.issued t k).seqExc t k vec 0 va = d.raised t k (d.ownCause t k vec va) := by
  rw [seqExc, issued_ipc]
  exact raiseExc_issued hc he hh

/-- A word whose issue raises an exception. -/
theorem issue_eq_raised {takes : Bool} {body : Dev → List (BitVec 10) → Dev} (hh : d.HasHandler t k c.vec w0)
    (h : (if !(d.thread t k).ext.isEmpty && !takes then (d.issued t k).illegal t k
      else body (d.issued t k) (d.thread t k).ext) = d.raised t k c) : d.issue t k takes body = d.raised t k c := by
  rw [issue_of_canIssue hc, h, settle_of_noHalt]
  rw [raised_thread he hh, issued_thread]; exact hc.noHalt

end

/-! An LDX issues its read at once; after an exception there is none. -/

theorem ldxIssue_of_notParked {d : Dev} {t k : Nat} (h : (d.thread t k).park = .none) : d.ldxIssue t k = d := by
  simp only [ldxIssue, h]

theorem seqStep_of_notParked {d : Dev} {t k : Nat} {op : SeqOp} (h : ((d.issueOp t k op).thread t k).park = .none) :
    d.seqStep t k op = d.issueOp t k op := by
  cases op with
  | ldx size a b =>
    simp only [seqStep, ldxIssue_of_notParked h]
    exact ite_self _
  | _ => rfl

section
variable {s : State} {t : Fin 96} {k : Fin 4} {vec w0 : Nat} {va : Option Nat} {c : Cause}
variable (hc : CanIssue s.dev t k) (he : s.dev.CanEnter t k)
include hc he

/-- What a command gives whose step raises an exception. -/
theorem gives_of_raised {cmd : Instr} {step : Dev → Dev} (hexec : exec cmd s = s.act step)
    (hh : s.dev.HasHandler t k c.vec w0) (h : step s.dev = s.dev.raised t k c) : Gives cmd s (s.dev.raised t k c) := by
  have hst : ((s.dev.issued t k).thread t k).st = .ready := by rw [issued_thread]; exact hc.ready
  have hforce : (s.dev.raised t k c).inForce = s.dev.inForce := by
    rw [raised, inForce_enterNormal he.issued.normal he.issued.level hh.issued hst, inForce_issued]
  have hdbg : (s.dev.raised t k c).dbg = s.dev.dbg := by
    rw [raised, enterNormal_dbg he.issued.normal he.issued.level hh.issued]; rfl
  rw [Gives, hexec, State.act, h, settleFreeze_of_same _ _ (by rw [hforce]; exact id) (by rw [hdbg])]

/-- What an instruction gives whose issue raises an exception. -/
theorem gives_of_issueOp {op : SeqOp} (hh : s.dev.HasHandler t k c.vec w0)
    (h : s.dev.issueOp t k op = s.dev.raised t k c) : Gives (op.cmd t k) s (s.dev.raised t k c) := by
  refine gives_of_raised hc he (exec_cmd op t k s) hh ?_
  rw [seqStep_of_notParked, h]
  rw [h, raised_thread he hh]; rfl

/-- An exception that the instruction raises on itself. -/
theorem gives_of_seqExc {op : SeqOp} (hh : s.dev.HasHandler t k vec w0)
    (hext : (s.dev.thread t k).ext = [] ∨ op.joins = true)
    (h : (s.dev.issued t k).runOp t k (s.dev.thread t k).ext op = (s.dev.issued t k).seqExc t k vec 0 va) :
    Gives (op.cmd t k) s (s.dev.raised t k (s.dev.ownCause t k vec va)) := by
  refine gives_of_issueOp hc he hh (issueOp_eq .. ▸ issue_eq_raised hc he hh ?_)
  rw [if_neg (by rcases hext with hext | hext <;> simp [hext]), h]
  exact seqExc_issued hc he hh

/-- EXT words before an instruction that takes none (R177). -/
theorem gives_of_misplacedExt {op : SeqOp} (hh : s.dev.HasHandler t k 0 w0)
    (hext : (s.dev.thread t k).ext ≠ []) (hop : op.joins = false) :
    Gives (op.cmd t k) s (s.dev.raised t k (s.dev.ownCause t k 0 none)) := by
  refine gives_of_issueOp hc he hh (issueOp_eq .. ▸ issue_eq_raised hc he hh ?_)
  rw [if_pos (by simp [hext, hop])]
  exact seqExc_issued hc he hh

/-- An instruction raises an exception on itself, without an address. -/
theorem enters_of_seqExc {op : SeqOp} (hh : s.dev.HasHandler t k vec w0) (hvec : vec < 64)
    (hext : (s.dev.thread t k).ext = [] ∨ op.joins = true)
    (h : (s.dev.issued t k).runOp t k (s.dev.thread t k).ext op = (s.dev.issued t k).seqExc t k vec 0 none) :
    Does (op.cmd t k) s (fun e => s.dev.Entered e t k vec 0 (s.dev.ownCause t k vec none).saved w0) :=
  ⟨_, gives_of_seqExc hc he hh hext h, ownCause_entered he hh hvec⟩

end

/-! Which instructions raise what. -/

section
variable (d : Dev) (t k : Nat)

/-- ILLEGAL (R176, R178). -/
theorem opBcc_illegal (imm : W32) : d.opBcc t k 15 imm = d.illegal t k := by simp [opBcc]

theorem opExt_illegal (imm : BitVec 10) {ext : List (BitVec 10)} (h : 3 ≤ ext.length) :
    d.opExt t k imm ext = d.illegal t k := if_pos h

theorem opRte_illegal {a : Nat} (h : a ≠ 0) : d.opRte t k a = d.illegal t k := if_pos h

theorem opPsync_illegal {a : Nat} (h : a ≠ 0) : d.opPsync t k a = d.illegal t k := if_pos h

theorem opFence_illegal {a : Nat} (h : a ≠ 0) : d.opFence t k a = d.illegal t k := if_pos h

theorem opCrcb_illegal {a : Nat} (h : a % 2 = 1) (cut : Option Nat) : d.opCrcb t k a cut = d.illegal t k :=
  if_pos (by omega)

theorem opMfs_illegal (a : Nat) {n : Nat} (h : sReserved n = true) : d.opMfs t k a n = d.illegal t k := if_pos h

theorem opMts_illegal (a : Nat) {n : Nat} (h : sReserved n = true) : d.opMts t k a n = d.illegal t k := if_pos h

/-- PRIV (R197). -/
theorem opRte_priv (h : (d.thread t k).priv = false) : d.opRte t k 0 = d.privExc t k := by simp [opRte, h]

theorem opPmw_priv (a b : Nat) (h : (d.thread t k).priv = false) : d.opPmw t k a b = d.privExc t k := by
  simp [opPmw, h]

theorem opMfs_priv (a : Nat) {n : Nat} (hn : sReserved n = false ∧ sPriv n = true) (h : (d.thread t k).priv = false) :
    d.opMfs t k a n = d.privExc t k := by simp [opMfs, hn, h]

theorem opMts_priv (a : Nat) {n : Nat} (hn : sReserved n = false ∧ sPriv n = true) (h : (d.thread t k).priv = false) :
    d.opMts t k a n = d.privExc t k := by simp [opMts, hn, h]

/-- ALIGN (R149, R188). -/
theorem opLd_align {size b : Nat} (a : Nat) {imm : W32} (h : lsAddr (d.thread t k) b imm % 2 ^ size ≠ 0) :
    d.opLd t k size a b imm = d.alignExc t k (lsAddr (d.thread t k) b imm) := if_pos h

theorem opSt_align {size b : Nat} (a : Nat) {imm : W32} (h : lsAddr (d.thread t k) b imm % 2 ^ size ≠ 0) :
    d.opSt t k size a b imm = d.alignExc t k (lsAddr (d.thread t k) b imm) := if_pos h

theorem opRemote_align (load : Bool) {size b va : Nat} (a : Nat) {imm : W32}
    (hva : vaOf (d.thread t k) b imm = some va) (h : va % 2 ^ size ≠ 0) :
    d.opRemote t k load size a b imm = d.alignExc t k va := by
  simp only [opRemote, hva, if_pos h]

/-- VA_RANGE (R188). -/
theorem opRemote_range (load : Bool) (size a : Nat) {b : Nat} {imm : W32} (hva : vaOf (d.thread t k) b imm = none) :
    d.opRemote t k load size a b imm = d.seqExc t k 3 0 (some (vaLow (d.thread t k) b imm)) := by
  simp only [opRemote, hva]

theorem opSow_range (towed : Bool) (a : Nat) {b : Nat} {imm : W32} (hva : vaOf (d.thread t k) b imm = none) :
    d.opSow t k towed a b imm = d.seqExc t k 3 0 (some (vaLow (d.thread t k) b imm)) := by
  simp only [opSow, hva]

end

end Dev

/-! When a pair and an immediate give a virtual address (R188). -/

theorem vaOf_eq_some {x : Thread} {b va : Nat} {imm : W32} (h : (va : Int) = (x.rdPair b).toNat + imm.toInt)
    (hpair : (x.rdPair b).toNat < 2 ^ 48) (hva : va < 2 ^ 48) : vaOf x b imm = some va := by
  have hdiv : (x.rdPair b).toNat / 2 ^ 48 = 0 := Nat.div_eq_of_lt hpair
  simp only [vaOf, hdiv, ← h]
  rw [if_neg (by simp), if_neg (by omega), if_neg (by omega), Int.toNat_natCast]

theorem vaOf_eq_none {x : Thread} {b : Nat} {imm : W32} (h : 2 ^ 48 ≤ (x.rdPair b).toNat ∨
    (x.rdPair b).toNat + imm.toInt < 0 ∨ 2 ^ 48 ≤ (x.rdPair b).toNat + imm.toInt) : vaOf x b imm = none := by
  simp only [vaOf]
  split_ifs with h₁ h₂ h₃
  · rfl
  · rfl
  · rfl
  · omega

/-! The clauses of the statement, by exception. -/

namespace Dev

section
variable {s : State} {t : Fin 96} {k : Fin 4} {w0 : Nat} (hc : CanIssue s.dev t k) (he : s.dev.CanEnter t k)
include hc he

theorem gives_svc {a : BitVec 5} (hx : NoExt s.dev t k) (hh : s.dev.HasHandler t k (0x20 + a.toNat) w0) :
    Gives (.svc t k a) s (s.dev.raised t k (s.dev.svcCause t k a.toNat)) := by
  have hpc : ((s.dev.issued t k).thread t k).pc = (s.dev.thread t k).pc + 1 := by rw [issued_thread]
  refine gives_of_issueOp (op := .svc a) (c := s.dev.svcCause t k a.toNat) hc he hh
    (issueOp_eq .. ▸ issue_eq_raised hc he hh ?_)
  rw [if_neg (by simp [show (s.dev.thread t k).ext = [] from hx]), runOp, opSvc, hpc]
  exact raiseExc_issued hc he hh

theorem does_svc {a : BitVec 5} (hx : NoExt s.dev t k) (hh : s.dev.HasHandler t k (0x20 + a.toNat) w0)
    (hwf : s.dev.mem.wf = true) : Does (.svc t k a) s (fun e =>
      s.dev.Entered e t k (0x20 + a.toNat) a.toNat ((s.dev.thread t k).pc + 1) w0 ∧
      (e.thread t k).rd 30 = BitVec.ofNat 32 ((s.dev.thread t k).frameAt w0) ∧
      (∀ i < 4, e.lsByte t ((s.dev.thread t k).frameAt w0 + i) =
          some (((s.dev.thread t k).epc &&& 0x3FFF).extractLsb' (8 * i) 8) ∧
        e.lsByte t ((s.dev.thread t k).frameAt w0 + 4 + i) = some ((s.dev.thread t k).estat.extractLsb' (8 * i) 8) ∧
        e.lsByte t ((s.dev.thread t k).frameAt w0 + 8 + i) = some (((s.dev.thread t k).rd 30).extractLsb' (8 * i) 8) ∧
        e.lsByte t ((s.dev.thread t k).frameAt w0 + 12 + i) = some (((s.dev.thread t k).rd 31).extractLsb' (8 * i) 8)) ∧
      s.dev.SameMemBut e ((List.range 16).map (fun i => lsCell t ((s.dev.thread t k).frameAt w0 + i)))) := by
  have hh' : s.dev.HasHandler t k (s.dev.svcCause t k a.toNat).vec w0 := hh
  have hvec : (s.dev.svcCause t k a.toNat).vec < 64 := by show 0x20 + a.toNat < 64; omega
  have hinfo : (s.dev.svcCause t k a.toNat).info < 2 ^ 16 := by show a.toNat < 2 ^ 16; omega
  exact ⟨_, gives_svc hc he hx hh, raised_entered he hh' hvec hinfo, raised_rd_30 he hh',
    fun i hi => raised_frame he hh' hwf hi, raised_sameMemBut he hh' hwf⟩

theorem does_crcb_illegal {a : BitVec 5} (cut : Option Nat) (hx : (s.dev.thread t k).ext = [])
    (hh : s.dev.HasHandler t k 0 w0) (ha : a.toNat % 2 = 1) :
    Does (.crcb t k a cut) s (fun e => s.dev.Entered e t k 0 0 (s.dev.ownCause t k 0 none).saved w0) := by
  refine ⟨_, gives_of_raised (c := s.dev.ownCause t k 0 none) (step := fun d => d.crcbStep t k a cut) hc he rfl hh
    (issue_eq_raised hc he hh ?_), ownCause_entered he hh (by decide)⟩
  rw [if_neg (by simp [hx]), opCrcb_illegal _ _ _ ha]
  exact seqExc_issued hc he hh

/-- PMW at J leaves program memory (R197). -/
theorem does_pmw_priv (a : BitVec 4) (b : BitVec 3) (hx : (s.dev.thread t k).ext = []) (hp : (s.dev.thread t k).priv = false)
    (hh : s.dev.HasHandler t k 1 w0) :
    Does (.pmw t k a b) s (fun e => s.dev.Entered e t k 1 0 (s.dev.ownCause t k 1 none).saved w0 ∧
      (s.dev.mem.wf = true → ∀ o < 2 ^ 14, e.pmRead t o = s.dev.pmRead t o)) := by
  refine ⟨_, gives_of_seqExc (op := .pmw a b) hc he hh (.inl hx) (opPmw_priv _ _ _ _ _ (issued_priv hp)),
    ownCause_entered he hh (by decide), fun hwf o _ => ?_⟩
  exact raised_pmRead (c := s.dev.ownCause t k 1 none) he hh hwf o

/-- ALIGN with a local store address in EVA. -/
theorem does_align_local {op : SeqOp} {ad : Nat} (hh : s.dev.HasHandler t k 2 w0) (had : ad < 65536)
    (hext : (s.dev.thread t k).ext = [] ∨ op.joins = true)
    (h : (s.dev.issued t k).runOp t k (s.dev.thread t k).ext op = (s.dev.issued t k).alignExc t k ad) :
    Does (op.cmd t k) s (fun e => s.dev.Entered e t k 2 0 (s.dev.ownCause t k 2 none).saved w0 ∧
      (e.thread t k).evaLo.toNat = ad ∧ (e.thread t k).evaHi = 0) := by
  obtain ⟨hlo, hhi⟩ := raised_eva (c := s.dev.ownCause t k 2 (some ad)) he hh rfl
  refine ⟨_, gives_of_seqExc hc he hh hext h, ownCause_entered he hh (by decide), ?_, ?_⟩
  · rw [hlo, BitVec.toNat_ofNat]; omega
  · rw [hhi, show ad / 2 ^ 32 = 0 by omega]; rfl

/-- ALIGN with a virtual address in EVA. -/
theorem does_align_remote {op : SeqOp} {va : Nat} (hh : s.dev.HasHandler t k 2 w0) (hva : va < 2 ^ 48)
    (hext : (s.dev.thread t k).ext = [] ∨ op.joins = true)
    (h : (s.dev.issued t k).runOp t k (s.dev.thread t k).ext op = (s.dev.issued t k).alignExc t k va) :
    Does (op.cmd t k) s (fun e => s.dev.Entered e t k 2 0 (s.dev.ownCause t k 2 none).saved w0 ∧
      (e.thread t k).evaLo.toNat + 2 ^ 32 * (e.thread t k).evaHi.toNat = va) := by
  obtain ⟨hlo, hhi⟩ := raised_eva (c := s.dev.ownCause t k 2 (some va)) he hh rfl
  refine ⟨_, gives_of_seqExc hc he hh hext h, ownCause_entered he hh (by decide), ?_⟩
  rw [hlo, hhi, BitVec.toNat_ofNat, BitVec.toNat_ofNat]; omega

/-- VA_RANGE sows nothing and buffers nothing. -/
theorem does_range {op : SeqOp} {va : Nat} (hh : s.dev.HasHandler t k 3 w0)
    (hext : (s.dev.thread t k).ext = [] ∨ op.joins = true)
    (h : (s.dev.issued t k).runOp t k (s.dev.thread t k).ext op = (s.dev.issued t k).seqExc t k 3 0 (some va)) :
    Does (op.cmd t k) s (fun e => s.dev.Entered e t k 3 0 (s.dev.ownCause t k 3 none).saved w0 ∧
      e.seeds = s.dev.seeds ∧ (e.thread t k).sb = (s.dev.thread t k).sb) :=
  ⟨_, gives_of_seqExc hc he hh hext h, ownCause_entered he hh (by decide), raised_seeds he hh,
    raised_sb he hh⟩

end

end Dev

/-- An instruction that takes no EXT word and is none joins no group (R177). -/
theorem SeqOp.joins_eq_false {op : SeqOp} (h : op.takesExt = false) (hne : ∀ i, op ≠ .ext i) : op.joins = false := by
  cases op with
  | ext i => exact absurd rfl (hne i)
  | _ => exact h

theorem sReserved_of_mem : ∀ n ∈ [15, 26, 27, 28, 29, 30, 31], Dev.sReserved (BitVec.ofNat 5 n).toNat = true := by
  decide

theorem sPriv_of_mem : ∀ n ∈ [1, 2, 3, 4, 5, 6, 7, 12, 18, 19, 20, 21, 22, 23, 24, 25],
    Dev.sReserved (BitVec.ofNat 5 n).toNat = false ∧ Dev.sPriv (BitVec.ofNat 5 n).toNat = true := by
  decide

/-- Settles O17: each instruction raises its exception on itself, and an exception that can be entered is entered. -/
theorem preciseExceptions : Obligations.PreciseExceptions := by
  constructor
  · intro s t k x a w0 sp fr hwf hc hx he hh hxt hsp hfr
    subst hxt
    have hframe : fr = (s.dev.thread t k).frameAt w0 := by rw [hfr, hsp, Thread.frameAt, Thread.handlerSp]
    rw [hframe]
    exact Dev.does_svc hc he hx hh hwf
  · rintro s t k x g w0 hc rfl he rfl
    refine ⟨fun hh => ⟨fun o => ?_, fun op hx hop hne => ?_, fun i hi => ?_, fun hx => ⟨?_, ?_, ?_⟩⟩,
      fun hh hx hp => ⟨?_, ?_, ?_⟩, fun hh size a b ad had => ⟨?_, ?_⟩, fun hh size a b v hv hrange => ?_⟩
    · exact Dev.enters_of_seqExc (op := .bcc 15 o) hc he hh (by decide) (.inr rfl)
        (Dev.opBcc_illegal _ _ _ (immOf (s.dev.thread t k).ext 5 o.toNat))
    · exact ⟨_, Dev.gives_of_misplacedExt hc he hh hx (SeqOp.joins_eq_false hop hne), Dev.ownCause_entered he hh (by decide)⟩
    · exact Dev.enters_of_seqExc (op := .ext i) hc he hh (by decide) (.inr rfl) (Dev.opExt_illegal _ _ _ _ hi)
    · intro a n hn c hcmd
      have hreserved := sReserved_of_mem n hn
      simp only [List.mem_cons, List.not_mem_nil, or_false] at hcmd
      rcases hcmd with rfl | rfl
      · exact Dev.enters_of_seqExc (op := .mfs a _) hc he hh (by decide) (.inl hx) (Dev.opMfs_illegal _ _ _ _ hreserved)
      · exact Dev.enters_of_seqExc (op := .mts a _) hc he hh (by decide) (.inl hx) (Dev.opMts_illegal _ _ _ _ hreserved)
    · intro a ha c hcmd
      have ha' : a.toNat ≠ 0 := fun h => ha (BitVec.eq_of_toNat_eq h)
      simp only [List.mem_cons, List.not_mem_nil, or_false] at hcmd
      rcases hcmd with rfl | rfl | rfl
      · exact Dev.enters_of_seqExc (op := .rte a) hc he hh (by decide) (.inl hx) (Dev.opRte_illegal _ _ _ ha')
      · exact Dev.enters_of_seqExc (op := .psync a) hc he hh (by decide) (.inl hx) (Dev.opPsync_illegal _ _ _ ha')
      · exact Dev.enters_of_seqExc (op := .fence a) hc he hh (by decide) (.inl hx) (Dev.opFence_illegal _ _ _ ha')
    · exact fun a cut ha => Dev.does_crcb_illegal hc he cut hx hh ha
    · exact Dev.enters_of_seqExc (op := .rte 0) hc he hh (by decide) (.inl hx) (Dev.opRte_priv _ _ _ (Dev.issued_priv hp))
    · exact fun a b => Dev.does_pmw_priv hc he a b hx hp hh
    · intro a n hn c hcmd
      have hpriv := sPriv_of_mem n hn
      simp only [List.mem_cons, List.not_mem_nil, or_false] at hcmd
      rcases hcmd with rfl | rfl
      · exact Dev.enters_of_seqExc (op := .mfs a _) hc he hh (by decide) (.inl hx)
          (Dev.opMfs_priv _ _ _ _ hpriv (Dev.issued_priv hp))
      · exact Dev.enters_of_seqExc (op := .mts a _) hc he hh (by decide) (.inl hx)
          (Dev.opMts_priv _ _ _ _ hpriv (Dev.issued_priv hp))
    · intro hls c hcmd
      have haddr : lsAddr ((s.dev.issued t k).thread t k) b.toNat (immOf (s.dev.thread t k).ext 0 0) = ad := by
        rw [lsAddr, Dev.issued_rd]; exact hls.symm
      have hlt : ad < 65536 := by rw [hls]; exact Nat.mod_lt _ (by decide)
      rw [← haddr] at had hlt ⊢
      simp only [List.mem_cons, List.not_mem_nil, or_false] at hcmd
      rcases hcmd with rfl | rfl
      · exact Dev.does_align_local (op := .ld size a b) hc he hh hlt (.inr rfl) (Dev.opLd_align _ _ _ _ had)
      · exact Dev.does_align_local (op := .st size a b) hc he hh hlt (.inr rfl) (Dev.opSt_align _ _ _ _ had)
    · intro hsum hpair hlt c hcmd
      have hva : vaOf ((s.dev.issued t k).thread t k) b.toNat (immOf (s.dev.thread t k).ext 0 0) = some ad :=
        vaOf_eq_some (by rw [Dev.issued_rdPair]; exact hsum) (by rw [Dev.issued_rdPair]; exact hpair) hlt
      simp only [List.mem_cons, List.not_mem_nil, or_false] at hcmd
      rcases hcmd with rfl | rfl
      · exact Dev.does_align_remote (op := .ldx size a b) hc he hh hlt (.inr rfl) (Dev.opRemote_align _ _ _ _ _ hva had)
      · exact Dev.does_align_remote (op := .stx size a b) hc he hh hlt (.inr rfl) (Dev.opRemote_align _ _ _ _ _ hva had)
    · intro c hcmd
      have hva : vaOf ((s.dev.issued t k).thread t k) b.toNat (immOf (s.dev.thread t k).ext 0 0) = none :=
        vaOf_eq_none (by rw [Dev.issued_rdPair, ← hv]; exact hrange)
      simp only [List.mem_cons, List.not_mem_nil, or_false] at hcmd
      rcases hcmd with rfl | rfl | rfl | rfl
      · exact Dev.does_range (op := .ldx size a b) hc he hh (.inr rfl) (Dev.opRemote_range _ _ _ _ _ _ hva)
      · exact Dev.does_range (op := .stx size a b) hc he hh (.inr rfl) (Dev.opRemote_range _ _ _ _ _ _ hva)
      · exact Dev.does_range (op := .sow a b) hc he hh (.inr rfl) (Dev.opSow_range _ _ _ _ _ hva)
      · exact Dev.does_range (op := .tow a b) hc he hh (.inr rfl) (Dev.opSow_range _ _ _ _ _ hva)

end Sys2Proof.Machine
end

section
/-! The interleave maps of the Granary and Loam windows (R266 to R270). Each map sends a line of a stripe to a
bank number, of which the coordinates are the digits, so it is one to one on the stripe where the bank number determines
the line. -/

namespace Sys2Proof.Machine

/-! The bank number of both Granary windows: a stripe has three parts of `2 ^ n` lines. -/

/-- The bank number of line `p` of stripe `r` of a Granary window: the parts are rotated by the stripe, and within a part
the position is folded with `f` (R267, R268). -/
def foldedBank (n r f p : Nat) : Nat := 2 ^ n * ((p / 2 ^ n + r) % 3) + (p % 2 ^ n ^^^ f)

section
variable {n r f p q : Nat} (hf : f < 2 ^ n)
include hf

theorem fold_lt (p : Nat) : p % 2 ^ n ^^^ f < 2 ^ n :=
  Nat.xor_lt_two_pow (Nat.mod_lt _ (Nat.two_pow_pos n)) hf

theorem foldedBank_div : foldedBank n r f p / 2 ^ n = (p / 2 ^ n + r) % 3 := by
  rw [foldedBank, Nat.mul_add_div (Nat.two_pow_pos n), Nat.div_eq_of_lt (fold_lt hf p), Nat.add_zero]

theorem foldedBank_mod : foldedBank n r f p % 2 ^ n = p % 2 ^ n ^^^ f := by
  rw [foldedBank, Nat.mul_add_mod, Nat.mod_eq_of_lt (fold_lt hf p)]

theorem foldedBank_lt : foldedBank n r f p < 3 * 2 ^ n := by
  rw [← Nat.div_lt_iff_lt_mul (Nat.two_pow_pos n), foldedBank_div hf]
  exact Nat.mod_lt _ (by decide)

/-- The part is the quotient of the bank number with the rotation undone, the position in it the remainder with the fold
undone. -/
theorem foldedBank_inj (hp : p < 3 * 2 ^ n) (hq : q < 3 * 2 ^ n) (h : foldedBank n r f p = foldedBank n r f q) : p = q := by
  have hpart : (p / 2 ^ n + r) % 3 = (q / 2 ^ n + r) % 3 := by rw [← foldedBank_div hf, h, foldedBank_div hf]
  have hpos : p % 2 ^ n ^^^ f = q % 2 ^ n ^^^ f := by rw [← foldedBank_mod hf, h, foldedBank_mod hf]
  have hpart' : p / 2 ^ n = q / 2 ^ n :=
    (Nat.ModEq.add_right_cancel' r hpart).eq_of_lt_of_lt (Nat.div_lt_of_lt_mul (by omega)) (Nat.div_lt_of_lt_mul (by omega))
  exact Nat.ext_div_mod hpart' (Nat.xor_left_inj.1 hpos)

end

/-! The Granary global window (R267). -/

/-- The fold of a stripe of the global window: row bits [8:0] with row bits [10:9]. -/
def globalFold (r : Nat) : Nat := (r % 512) ^^^ (r / 512 % 4)

theorem globalFold_lt (r : Nat) : globalFold r < 2 ^ 9 := Nat.xor_lt_two_pow (by omega) (by omega)

theorem granaryGlobal_eq {o r p : Nat} (ho : o / 64 = 1536 * r + p) (hp : p < 1536) : granaryGlobal o =
    ⟨foldedBank 9 r (globalFold r) p % 96, foldedBank 9 r (globalFold r) p / 96, r⟩ := by
  have hrow : o / 64 / 1536 = r := by omega
  have hpos : o / 64 % 1536 = p := by omega
  simp only [granaryGlobal, hrow, hpos]
  rfl

theorem granaryGlobal_inj {r p q : Nat} (hp : p < 1536) (hq : q < 1536)
    (h : granaryGlobal ((1536 * r + p) * 64) = granaryGlobal ((1536 * r + q) * 64)) : p = q := by
  rw [granaryGlobal_eq (Nat.mul_div_cancel _ (by decide)) hp, granaryGlobal_eq (Nat.mul_div_cancel _ (by decide)) hq] at h
  injection h with hslice hbank
  exact foldedBank_inj (globalFold_lt r) hp hq (Nat.ext_div_mod hbank hslice)

/-! The Granary quadrant windows (R268). -/

/-- The fold of a stripe of a quadrant window: row bits [6:0] with row bits [10:7]. -/
def quadrantFold (r : Nat) : Nat := (r % 128) ^^^ (r / 128 % 16)

theorem quadrantFold_lt (r : Nat) : quadrantFold r < 2 ^ 7 := Nat.xor_lt_two_pow (by omega) (by omega)

theorem granaryQuadrant_eq (j : Nat) {o r p : Nat} (ho : o / 64 = 384 * r + p) (hp : p < 384) :
    granaryQuadrant j o =
      ⟨24 * j + foldedBank 7 r (quadrantFold r) p % 24, foldedBank 7 r (quadrantFold r) p / 24, r⟩ := by
  have hrow : o / 64 / 384 = r := by omega
  have hpos : o / 64 % 384 = p := by omega
  simp only [granaryQuadrant, hrow, hpos]
  rfl

theorem granaryQuadrant_inj {j r p q : Nat} (hp : p < 384) (hq : q < 384)
    (h : granaryQuadrant j ((384 * r + p) * 64) = granaryQuadrant j ((384 * r + q) * 64)) : p = q := by
  rw [granaryQuadrant_eq j (Nat.mul_div_cancel _ (by decide)) hp,
    granaryQuadrant_eq j (Nat.mul_div_cancel _ (by decide)) hq] at h
  injection h with hslice hbank
  exact foldedBank_inj (quadrantFold_lt r) hp hq (Nat.ext_div_mod hbank (Nat.add_left_cancel hslice))

/-! The Loam window (R269). -/

/-- The fold of a stripe of the Loam window: row bits [10:0] with row bits [17:11]. -/
def loamFold (r : Nat) : Nat := (r % 2048) ^^^ (r / 2048 % 128)

theorem loamFold_lt (r : Nat) : loamFold r < 2 ^ 11 := Nat.xor_lt_two_pow (by omega) (by omega)

theorem xor_loamFold_lt {r p : Nat} (hp : p < 2048) : p ^^^ loamFold r < 2048 :=
  Nat.xor_lt_two_pow (n := 11) hp (loamFold_lt r)

theorem loamCoord_eq {o r p : Nat} (ho : o / 64 = 2048 * r + p) (hp : p < 2048) : loamCoord o =
    ⟨(p ^^^ loamFold r) % 8, (p ^^^ loamFold r) / 8 % 16, (p ^^^ loamFold r) / 128 % 16, r⟩ := by
  have hrow : o / 64 / 2048 = r := by omega
  have hpos : o / 64 % 2048 = p := by omega
  simp only [loamCoord, hrow, hpos]
  rfl

theorem loamCoord_inj {r p q : Nat} (hp : p < 2048) (hq : q < 2048)
    (h : loamCoord ((2048 * r + p) * 64) = loamCoord ((2048 * r + q) * 64)) : p = q := by
  rw [loamCoord_eq (Nat.mul_div_cancel _ (by decide)) hp, loamCoord_eq (Nat.mul_div_cancel _ (by decide)) hq] at h
  injection h with hstack hchannel hbank
  have hp' := xor_loamFold_lt (r := r) hp
  have hq' := xor_loamFold_lt (r := r) hq
  have hnumber : p ^^^ loamFold r = q ^^^ loamFold r := by omega
  exact Nat.xor_left_inj.1 hnumber

/-- Settles O32, window by window: the map in terms of the bank number, its range, and that it is one to one. -/
theorem interleaveIsOneToOne : Obligations.InterleaveIsOneToOne := by
  refine ⟨fun r _ => ⟨fun p hp y hy => ?_, fun p hp q hq => granaryGlobal_inj hp hq⟩,
    fun j _ r _ => ⟨fun p hp y hy => ?_, fun p hp q hq => granaryQuadrant_inj hp hq⟩,
    fun r _ => ⟨fun p hp y hy => ?_, fun p hp q hq => loamCoord_inj hp hq⟩⟩
  · exact ⟨_, _, rfl, rfl, granaryGlobal_eq (by omega) hp, Nat.div_lt_of_lt_mul (foldedBank_lt (globalFold_lt r))⟩
  · exact ⟨_, _, rfl, rfl, granaryQuadrant_eq j (by omega) hp, Nat.div_lt_of_lt_mul (foldedBank_lt (quadrantFold_lt r))⟩
  · exact ⟨_, rfl, loamCoord_eq (by omega) hp, xor_loamFold_lt hp⟩

end Sys2Proof.Machine
end
